-- ==== Sys2Proof/Word.lean ====
section
/-! DEFINITION. The block's word types (spec/00_scope.md R12: a byte is 8 bits, a u16 is 16 bits, nothing is signed)
and its fixed-length byte strings and arrays (spec/10_state.md R51, spec/20_memory.md R53). -/

namespace Sys2Proof

/-- A byte: 8 bits, unsigned (R12). -/
abbrev Byte := BitVec 8

/-- A u16: 16 bits, unsigned (R12). -/
abbrev U16 := BitVec 16

/-- A frame, `FRAME_LEN` = 10 bytes, byte 0 the first byte the radio delivers (R14, R75). -/
abbrev Frame := Vector Byte 10

/-- A radio address, `ADDR_LEN` = 5 bytes, a0 first (R10, R51). -/
abbrev Address := Vector Byte 5

/-- The hop table, `N_HOP` = 20 channel numbers (R10, R51). -/
abbrev HopTable := Vector Byte 20

/-- The bind record, `RECORD_LEN` = 26 bytes: address, hop table, protocol identifier (R10, R79). -/
abbrev BindRecord := Vector Byte 26

/-- One ChannelSet slot as it is stored: four u16 entries, of which the first N(variant) are used (R40, R41). -/
abbrev ChannelSet := Vector U16 4

/-- The PulseBuffer's two slots (R40). -/
abbrev PulseBuffer := Vector ChannelSet 2

end Sys2Proof
end

