-- ==== Sys2Proof/Syntax.lean ====
section
/-! DEFINITION. The syntax of the block: its enumerations, the output commands and absorbed conditions of the trace, the
decode contexts, and `Instr`, one constructor per row of spec/opcode_table.json (spec/00_scope.md R4). -/

namespace Sys2Proof

/-- The protocol variant (R11, R30); its codes are `Variant.code`. -/
inductive Variant where
  | ch3
  | ch4
  deriving DecidableEq, Repr, Inhabited

/-- The handshake stage (R29). DOC's "done" is no stored state; codes 5 to 7 are never written and have no value here. -/
inductive BindStage where
  | idle
  | awaitAddr
  | awaitHop1
  | awaitHop2
  | awaitHop3
  deriving DecidableEq, Repr, Inhabited

/-- The link status (R28): Idle = 0, Receiving = 1, Failsafe = 2, Binding = 3. -/
inductive LinkStatus where
  | idle
  | receiving
  | failsafe
  | binding
  deriving DecidableEq, Repr, Inhabited

/-- The pulse-train step (R31): `ch k` while channel k's pulse is being emitted, `off` when the generator is halted. -/
inductive PulseState where
  | ch (k : Fin 4)
  | off
  deriving DecidableEq, Repr, Inhabited

/-- Which interval the next hop-timer expiry ends (R35, R113): FIRST = 0, STEADY = 1. -/
inductive HopInterval where
  | first
  | steady
  deriving DecidableEq, Repr, Inhabited

/-- What a bind request during a session does (R10 `REBIND_POLICY`, R95). -/
inductive RebindPolicy where
  | ignore
  | restart
  deriving DecidableEq, Repr, Inhabited

/-- The output commands to the collaborators, complete (R150). -/
inductive Command where
  | radioInit
  | ce (b : Bool)
  | setAddr (a : Address)
  | setChannel (ch : Byte)
  | flushRx
  | clearIrq
  | hopTimerStart (i : HopInterval)
  | hopTimerStop
  | nvSave (r : BindRecord)
  | ptimerStop
  | ptimerLoad (v : U16)
  | ptimerStart
  deriving DecidableEq, Repr

/-- The absorbed conditions, complete (R165), with codes 1 to 6 in this order. -/
inductive CondCode where
  | bindMalformed
  | bindTimeout
  | hopResync
  | failsafeEnter
  | noRecord
  | frameUnknown
  deriving DecidableEq, Repr

/-- The info a condition records in the trace, "for reading, not for comparison" (R148, R165). -/
inductive CondInfo where
  | nothing
  | stageFrame (stage : BindStage) (f : Frame)
  | frame (f : Frame)
  deriving DecidableEq, Repr

/-- One entry of the output trace (R148): a command, or an absorbed condition with its info. -/
inductive TraceEntry where
  | cmd (c : Command)
  | cond (code : CondCode) (info : CondInfo)
  deriving DecidableEq, Repr

/-- The ten frame operations a frame decodes into (R86, R87). -/
inductive FrameOp where
  | bind0Ch3
  | bind0Ch4
  | bindBlk1
  | bindBlk2
  | bindBlk3
  | bindReject
  | dataStick
  | dataFsEn
  | dataFsDis
  | dataUnknown
  deriving DecidableEq, Repr

/-- The mode values a frame's decoding depends on (R88): the stage (with the checksum it expects) and the variant. -/
structure FrameMode where
  stage : BindStage
  cksum : U16
  variant : Variant
  deriving DecidableEq, Repr

/-- Which of the opcode table's encoding spaces a word is read in. The block's own input is `event` (R73); the other
spaces number what the block does INSIDE an event (R4): frame operations (R87), dispatch phases (R94), output commands
(R150) and trace conditions (R148). DESIGN CHOICE (log entry 6), safe. A phase code does not carry the button sample of
the TICK event being handled (R145), so the `phase` space holds it. -/
inductive Port where
  | event
  | frame
  | phase (sample : Bool)
  | command
  | condition
  deriving DecidableEq, Repr

/-- Why a word decodes to no instruction. -/
inductive DecodeError where
  /-- the bytes end inside an instruction -/
  | truncated
  /-- an event byte whose code is 0x7..0xF (R74) -/
  | reservedEvent (b : Byte)
  /-- an event byte whose operand bits are not the table's (R74) -/
  | reservedOperand (b : Byte)
  /-- a byte that is no phase number 1..7 (R94) -/
  | reservedPhase (b : Byte)
  /-- a command code that is not in the table (R150) -/
  | reservedCommand (b : Byte)
  /-- a CE or HOP_TIMER_START argument byte other than 0 and 1 (R152, R157) -/
  | badArgument (b : Byte)
  /-- a byte whose upper four bits are not 0xF, read as a condition entry (R148) -/
  | notACondition (b : Byte)
  deriving DecidableEq, Repr

/-- The operations of the block, one constructor per row of spec/opcode_table.json, in the table's order. -/
inductive Instr where
  -- input events (R73)
  | reset
  | tick (b : Bool)
  | rxf (f : Frame)
  | rirq
  | hexp
  | pexp
  | tstart
  -- frame operations (R87)
  | bind0Ch3 (f : Frame)
  | bind0Ch4 (f : Frame)
  | bindBlk1 (f : Frame)
  | bindBlk2 (f : Frame)
  | bindBlk3 (f : Frame)
  | bindReject (f : Frame)
  | dataStick (f : Frame)
  | dataFsEn (f : Frame)
  | dataFsDis (f : Frame)
  | dataUnknown (f : Frame)
  -- phases of a dispatch (R94)
  | dispTick (b : Bool)
  | dispButton
  | dispBind
  | dispRx
  | dispFs
  | dispHop
  | dispLed
  -- helper operations, which have no encoding
  | bindEnter
  | armBeacon
  | bindRestart
  | bindCommit
  | bindParse (r : BindRecord)
  | rearm
  | bindTimeout
  | hopResync
  | hopValid
  | publish (vals : ChannelSet)
  | pulseEnter (k : Fin 4)
  | pulseOff (k : Fin 4)
  | boot
  -- output commands (R150)
  | radioInit
  | ce (b : Bool)
  | setAddr (a : Address)
  | setChannel (ch : Byte)
  | flushRx
  | clearIrq
  | hopTimerStart (i : HopInterval)
  | hopTimerStop
  | nvSave (r : BindRecord)
  | ptimerStop
  | ptimerLoad (v : U16)
  | ptimerStart
  -- trace conditions (R148)
  | cond (code : BitVec 4)
  deriving DecidableEq, Repr

end Sys2Proof
end

