-- ==== Sys2Proof/Config.lean ====
section
/-! DEFINITION. The configuration record `Cfg` of spec/00_scope.md R10, and the free values of spec/70_reset_and_hazards.md
R185.

Rows R10 marks DOC are the fixed numbers of this file and of the types of Word.lean. Rows it marks OPEN are fields of `Cfg`,
and the machine runs on `Config.cfg`, whose OPEN fields come from the opaque constant `Config.openRows`: nothing in Lean can
evaluate them, so what is proved holds for every value. Each constraint of R10 holds BY CONSTRUCTION: a field holds the
distance from the least admissible value, so every admissible configuration is one `Cfg` and every `Cfg` is admissible
(log entry 1).

R10 constrains the four durations `TICK_PERIOD`, `HOP_FIRST_INTERVAL`, `HOP_STEADY_INTERVAL` and `PULSE_TIME_UNIT` by order
alone and gives them no type and no unit. That each is a whole number of some unit the model does not name is its own choice
(DESIGN CHOICE, log entry 29); no operation reads them. -/

namespace Sys2Proof

/-- The parameters of R10 that have no value in the source, and the two policy switches. -/
structure Cfg where
  /-- `TICK_PERIOD` less 1 (> 0); a whole number by choice (log entry 29). -/
  tickPeriodOver : Nat
  /-- `BIND_TIMEOUT_TICKS` less 1 (≥ 1). -/
  bindTimeoutOver : Nat
  /-- `FS_TIMEOUT_TICKS` less 1 (≥ 1). -/
  fsTimeoutOver : Nat
  /-- `BLINK_PERIOD(Binding)` less 1 (≥ 1). -/
  blinkBindingOver : Nat
  /-- `BLINK_PERIOD(Failsafe)` less `BLINK_PERIOD(Binding)` less 1 (binding is faster). -/
  blinkFailsafeOver : Nat
  /-- `BLINK_PERIOD(Idle)` less `BLINK_PERIOD(Binding)` less 1 (binding is faster). -/
  blinkIdleOver : Nat
  /-- `HOP_FIRST_INTERVAL` less 1 (> 0); a whole number by choice (log entry 29). -/
  hopFirstOver : Nat
  /-- `HOP_STEADY_INTERVAL` less `HOP_FIRST_INTERVAL` less 1 (steady is longer); a whole number by choice (log entry 29). -/
  hopSteadyOver : Nat
  /-- `STICK_ID(CH3)`. -/
  stickIdCh3 : Byte
  /-- `STICK_ID(CH4)`. -/
  stickIdCh4 : Byte
  /-- `FAILSAFE_ID(CH3)` is `STICK_ID(CH3)` plus 1 plus this, mod 256 (so the two differ). -/
  failsafeIdOverCh3 : Fin 255
  /-- `FAILSAFE_ID(CH4)` is `STICK_ID(CH4)` plus 1 plus this, mod 256 (so the two differ). -/
  failsafeIdOverCh4 : Fin 255
  /-- `FS_ENABLE_MARKER`. -/
  fsEnableMarker : Byte
  /-- `CENTER(CH3)`. -/
  centerCh3 : U16
  /-- `CENTER(CH4)`. -/
  centerCh4 : U16
  /-- `BEACON_CHANNEL`. -/
  beaconChannel : Byte
  /-- `BEACON_ADDR`. -/
  beaconAddr : Address
  /-- `RADIO_CRC_MODE`, as a number that names the mode (log entry 15). -/
  radioCrcMode : Nat
  /-- `RADIO_DATA_RATE`, as a number that names the rate (log entry 15). -/
  radioDataRate : Nat
  /-- `RX_QUEUE_DEPTH` less 1 (≥ 1). -/
  rxQueueDepthOver : Nat
  /-- `HAS_AUX_PIN`. -/
  hasAuxPin : Bool
  /-- `REBIND_POLICY` (decided IGNORE, D12). -/
  rebindPolicy : RebindPolicy
  /-- `RESTART_CLEARS_HOP_FLAG` (decided false, D20). -/
  restartClearsHopFlag : Bool
  /-- `PULSE_TIME_UNIT` less 1 (> 0); a whole number by choice (log entry 29). -/
  pulseTimeUnitOver : Nat
  /-- How many bits `COUNTER_WIDTH` has beyond the least width that holds every reload value. -/
  counterWidthOver : Nat
  deriving DecidableEq, Repr, Inhabited

/-- `HOP_MISS_THRESHOLD` = 15 (R10, DOC). -/
def hopMissThreshold : Nat := 15

/-- `BIND_TIMEOUT_MS` = 5000 (R10, DOC); `BIND_TIMEOUT_TICKS` is only "intended" to be it over the tick period. -/
def bindTimeoutMs : Nat := 5000

/-- `BIND_MARKER` = 0xFF (R10, DOC). -/
def bindMarker : Byte := 0xFF#8

/-- `PAIR_3CH` and `PAIR_4CH` (R10, DOC): the (P, M) pair that selects a variant. -/
def bindPair : Variant → Byte × Byte
  | .ch3 => (0xAA#8, 0x55#8)
  | .ch4 => (0xAB#8, 0x56#8)

/-- N(v), the channel count of a variant (R11, R30). -/
def channelCount : Variant → Nat
  | .ch3 => 3
  | .ch4 => 4

def Cfg.tickPeriod (c : Cfg) : Nat := c.tickPeriodOver + 1

def Cfg.bindTimeoutTicks (c : Cfg) : Nat := c.bindTimeoutOver + 1

def Cfg.fsTimeoutTicks (c : Cfg) : Nat := c.fsTimeoutOver + 1

/-- `BLINK_PERIOD(s)`; Receiving has none (R140), written 0, the value R141 gives the blink timer there. -/
def Cfg.blinkPeriod (c : Cfg) : LinkStatus → Nat
  | .idle => c.blinkBindingOver + 1 + (c.blinkIdleOver + 1)
  | .receiving => 0
  | .failsafe => c.blinkBindingOver + 1 + (c.blinkFailsafeOver + 1)
  | .binding => c.blinkBindingOver + 1

def Cfg.hopFirstInterval (c : Cfg) : Nat := c.hopFirstOver + 1

def Cfg.hopSteadyInterval (c : Cfg) : Nat := c.hopFirstInterval + (c.hopSteadyOver + 1)

def Cfg.stickId (c : Cfg) : Variant → Byte
  | .ch3 => c.stickIdCh3
  | .ch4 => c.stickIdCh4

def Cfg.failsafeId (c : Cfg) : Variant → Byte
  | .ch3 => c.stickIdCh3 + BitVec.ofNat 8 (c.failsafeIdOverCh3.val + 1)
  | .ch4 => c.stickIdCh4 + BitVec.ofNat 8 (c.failsafeIdOverCh4.val + 1)

def Cfg.center (c : Cfg) : Variant → U16
  | .ch3 => c.centerCh3
  | .ch4 => c.centerCh4

def Cfg.rxQueueDepth (c : Cfg) : Nat := c.rxQueueDepthOver + 1

def Cfg.pulseTimeUnit (c : Cfg) : Nat := c.pulseTimeUnitOver + 1

/-- The largest value a countdown is ever reloaded to (R44). -/
def Cfg.largestReload (c : Cfg) : Nat :=
  max (max c.fsTimeoutTicks c.bindTimeoutTicks) (max (c.blinkPeriod .idle) (c.blinkPeriod .failsafe))

/-- `COUNTER_WIDTH`, "wide enough for every reload value" (R10, R44). -/
def Cfg.counterWidth (c : Cfg) : Nat := Nat.log2 c.largestReload + 1 + c.counterWidthOver

/-- The OPEN rows of R10: a configuration nothing is known of. -/
opaque Config.openRows : Cfg

/-- The configuration the machine runs on: every OPEN row is open, and the two policy switches have the values the spec
decides (D12 IGNORE, D20 false; log entry 2). -/
def Config.cfg : Cfg :=
  { Config.openRows with rebindPolicy := .ignore, restartClearsHopFlag := false }

/-- FREE VALUE: the PulseBuffer contents the n-th reset draws, "any u16 per entry" (R185, I2; log entry 3). -/
opaque Config.pulseBufferDraw : Nat → PulseBuffer

/-- FREE VALUE: the active-slot selector the n-th reset draws, "any selector bit" (R185, I2; log entry 3). -/
opaque Config.selectorDraw : Nat → Fin 2

end Sys2Proof
end

