-- ==== Sys2Proof/Machine/State.lean ====
section
/-! DEFINITION. The block's state (spec/10_state.md), the reasons a step can stop, and the state after reset
(spec/70_reset_and_hazards.md R184, R186). Fields are named as 10_state.md names them, in camel case. -/

namespace Sys2Proof.Machine

/-- The radio's data-ready interrupt source, the one RADIO_INIT selects (R151). -/
inductive IrqSource where
  | rxDataReady
  deriving DecidableEq, Repr

/-- The static radio configuration (R151). -/
structure RadioCfg where
  addrWidth : Nat
  payload : Nat
  crc : Nat
  dataRate : Nat
  autoAck : Bool
  irqSource : IrqSource
  deriving DecidableEq, Repr

/-- The block, its collaborator mirrors, and what the model adds (`trace`, `input`, `port`, `draws`). -/
structure State where
  /-- current handshake state (R32) -/
  bindStage : BindStage
  /-- checksum of the captured address (R32) -/
  bindCksum : U16
  /-- the bind record being assembled (R32) -/
  bindRec : BindRecord
  /-- status before the session began (R32) -/
  bindSavedStatus : LinkStatus
  /-- bind timeout countdown, in ticks (R32, R44) -/
  bindTimer : Nat
  /-- live ModelAddress (R34) -/
  modelAddr : Address
  /-- live hop table (R34) -/
  hopSeq : HopTable
  /-- live protocol variant (R34) -/
  variant : Variant
  /-- current hop index, 5 bits (R35) -/
  hopIndex : BitVec 5
  /-- misses since the last packet, 5 bits (R35) -/
  missCount : BitVec 5
  /-- hop requested (R35) -/
  hopFlag : Bool
  /-- the hop timer runs (R35) -/
  hopTimerRunning : Bool
  /-- which interval the next expiry ends (R35) -/
  hopTimerInterval : HopInterval
  /-- radio data ready (R36) -/
  radioFlag : Bool
  /-- a valid stick-data packet has been received since power-up (R36, R37) -/
  everReceived : Bool
  /-- FailsafeSet.enabled (R38) -/
  fsEnabled : Bool
  /-- FailsafeSet values (R38) -/
  fsValues : ChannelSet
  /-- failsafe timeout countdown, in ticks (R38, R44) -/
  fsTimer : Nat
  /-- link status (R39) -/
  status : LinkStatus
  /-- the two ChannelSet slots (R40) -/
  pbuf : PulseBuffer
  /-- active slot selector, 1 bit (R40) -/
  psel : Fin 2
  /-- pulse-train step (R40) -/
  pstate : PulseState
  /-- the pulse timer counts (R40) -/
  ptimerRunning : Bool
  /-- last duration programmed (R40) -/
  ptimerReload : U16
  /-- servo output pins, logical high = true; pin 3 doubles as the auxiliary output (R40, R136) -/
  pin : Vector Bool 4
  /-- status LED level, on = true (R42) -/
  led : Bool
  /-- status the LED configuration was set for; none = NONE (R42) -/
  ledLast : Option LinkStatus
  /-- blink countdown, in ticks (R42, R44) -/
  blinkTimer : Nat
  /-- raw button sample of the previous tick (R43) -/
  btnPrev : Bool
  /-- debounced button state (R43) -/
  btnDeb : Bool
  /-- the within-dispatch one-shot bind request (R43, R49): false between dispatches -/
  bindRequest : Bool
  /-- radio mirror: receive address (R45) -/
  radioAddr : Address
  /-- radio mirror: channel (R45) -/
  radioChannel : Byte
  /-- radio mirror: chip-enable (R45) -/
  radioCe : Bool
  /-- radio mirror: static configuration (R45, R151) -/
  radioCfg : RadioCfg
  /-- the radio's receive queue, oldest first (R46) -/
  rxq : List Frame
  /-- the persisted bind record (R47) -/
  nv : Option BindRecord
  /-- the output trace, oldest first (R148); the model's own device (R182) -/
  trace : List TraceEntry
  /-- MODEL'S OWN (log entry 5): the input events still to come, as bytes (R73) -/
  input : List Byte
  /-- MODEL'S OWN (log entry 6): the encoding space the next word of `input` is read in; `event` in every run -/
  port : Port
  /-- MODEL'S OWN (log entry 3): how many resets have drawn free values -/
  draws : Nat
  deriving DecidableEq, Repr

/-- Why the machine stops with a fault: never. "No fatal error path exists" (R164: no condition stops the block), so this
type has no constructor; no one raises it, and there is nothing safe or unsafe about it. -/
inductive Fault where
  deriving DecidableEq, Repr

/-- Why the model gives an input no step. Every one is SAFE: the model stops where the spec says there is no step. -/
inductive Refusal where
  /-- Raised by `exec`'s arm of an operation without a meaning; no arm answers it in this model. Safe. -/
  | notModelled (mnemonic : String)
  /-- Raised by the fetch when no input event is left: there is nothing to handle. Safe. -/
  | noEvent
  /-- Raised by the fetch on an ill-formed event sequence, which "a model refuses" (R74, R168). Safe. -/
  | undecodable (e : DecodeError)
  /-- Raised by HEXP while the hop timer is stopped: no event the environment can produce (R114, R168). Safe. -/
  | hopTimerStopped
  /-- Raised by PEXP while the pulse timer is stopped or the generator OFF: no such event (R131, R134, R168). Safe. -/
  | pulseTimerStopped
  /-- Raised by COND with code 0 or 7..15, which "are never raised" (R165). Safe. -/
  | reservedCondition (code : BitVec 4)
  deriving DecidableEq, Repr

/-- What a meaning answers. -/
abbrev Answer := Host.Outcome State Fault Refusal

/-- The radio configuration RADIO_INIT writes (R151). -/
def radioInitCfg (c : Cfg) : RadioCfg :=
  { addrWidth := 5
    payload := 10
    crc := c.radioCrcMode
    dataRate := c.radioDataRate
    autoAck := false
    irqSource := .rxDataReady }

/-- The machine right after its first power-up reset: the reset column of 10_state.md and the boot sequence of R186 with no
stored record (`nv = none`, log entry 4), the trace that reset leaves (`F5 · 10 · REARM(00×5, 00)`), the PulseBuffer and
selector at the first free draw (R185), and no input event yet. -/
def State.reset : State :=
  { bindStage := .idle
    bindCksum := 0#16
    bindRec := Vector.replicate 26 0#8
    bindSavedStatus := .idle
    bindTimer := 0
    modelAddr := Vector.replicate 5 0#8
    hopSeq := Vector.replicate 20 0#8
    variant := .ch3
    hopIndex := 0#5
    missCount := 0#5
    hopFlag := false
    hopTimerRunning := false
    hopTimerInterval := .first
    radioFlag := false
    everReceived := false
    fsEnabled := false
    fsValues := Vector.replicate 4 (Config.cfg.center .ch3)
    fsTimer := 0
    status := .idle
    pbuf := Config.pulseBufferDraw 0
    psel := Config.selectorDraw 0
    pstate := .off
    ptimerRunning := false
    ptimerReload := 0#16
    pin := Vector.replicate 4 false
    led := false
    ledLast := none
    blinkTimer := 0
    btnPrev := false
    btnDeb := false
    bindRequest := false
    radioAddr := Vector.replicate 5 0#8
    radioChannel := 0#8
    radioCe := true
    radioCfg := radioInitCfg Config.cfg
    rxq := []
    nv := none
    trace :=
      [.cond .noRecord .nothing, .cmd .radioInit, .cmd (.ce false), .cmd (.setAddr (Vector.replicate 5 0#8)),
       .cmd .hopTimerStop, .cmd (.setChannel 0#8), .cmd .flushRx, .cmd .clearIrq, .cmd (.ce true)]
    input := []
    port := .event
    draws := 1 }

end Sys2Proof.Machine
end

