-- ==== Sys2Proof/Machine/Flags.lean ====
section
/-! DEFINITION. The block's flags (spec/10_state.md R49): the single-bit sets and clears (spec/20_memory.md R61), and the
within-dispatch bind request (spec/47_tick_scheduler.md R145). A set of a set flag leaves it set. The block has no arithmetic
condition codes. `hopTimerRunning` and `ptimerRunning` are written by the timer commands (Ops.lean). -/

namespace Sys2Proof.Machine

/-- The radio handler's set (R97). -/
def setRadioFlag (s : State) : State := { s with radioFlag := true }

/-- The main dispatch's clear, before it reads the queue (R98). -/
def clearRadioFlag (s : State) : State := { s with radioFlag := false }

/-- The hop handler's set (R114). -/
def setHopFlag (s : State) : State := { s with hopFlag := true }

/-- The main dispatch's clear, before it counts the miss (R98). -/
def clearHopFlag (s : State) : State := { s with hopFlag := false }

/-- Set by stick data and by nothing else (R37). -/
def setEverReceived (s : State) : State := { s with everReceived := true }

/-- FailsafeSet.enabled (R122). -/
def setFsEnabled (b : Bool) (s : State) : State := { s with fsEnabled := b }

/-- The request is consumed in the dispatch that raised it (R43). -/
def clearBindRequest (s : State) : State := { s with bindRequest := false }

/-- The debounced state a sample leaves: two equal consecutive samples update it (R145). -/
def debounced (sample prev deb : Bool) : Bool := if sample = prev then sample else deb

/-- The released-to-pressed edge (R145). -/
def pressEdge (before after : Bool) : Bool := !before && after

end Sys2Proof.Machine
end

