-- ==== Sys2Proof/WellFormed.lean ====
section
/-! DEFINITION. When an operation is one its encoding can denote. Only two kinds of operand can be ill-formed: a frame
handed to a frame operation that its mode does not decode it into (spec/30_encoding.md R86, R87), and a condition code that
is never raised (spec/60_exceptions.md R165). The patterns are those of R87's table, written as comparisons. -/

namespace Sys2Proof

/-- The marker pattern of R76 for variant v: byte 0 is `BIND_MARKER`, bytes 1 and 2 the pair of v (R85: tested together). -/
def isMarker (v : Variant) (f : Frame) : Bool :=
  f[0] == bindMarker && f[1] == (bindPair v).1 && f[2] == (bindPair v).2

/-- The hop-block pattern of R77: the first two bytes are the checksum, little-endian, and byte 2 is the sequence byte. -/
def isHopBlock (cksum : U16) (seq : Byte) (f : Frame) : Bool :=
  cksum == f[1] ++ f[0] && f[2] == seq

/-- The bind frame of each waiting stage (R86): the frames that stage does NOT reject. -/
def stageAccepts (m : FrameMode) (f : Frame) : Bool :=
  match m.stage with
  | .idle => false
  | .awaitAddr => isMarker .ch3 f || isMarker .ch4 f
  | .awaitHop1 => isHopBlock m.cksum 0x00#8 f
  | .awaitHop2 => isHopBlock m.cksum 0x01#8 f
  | .awaitHop3 => isHopBlock m.cksum 0x02#8 f

/-- Well-formedness of an operation under a configuration and a decoding mode (R87, R165). An operation that has no
operand, or whose operand may take every value of its type, is well-formed. -/
def WellFormed (c : Cfg) (m : FrameMode) : Instr → Bool
  | .reset => true
  | .tick _ => true
  | .rxf _ => true
  | .rirq => true
  | .hexp => true
  | .pexp => true
  | .tstart => true
  | .bind0Ch3 f => m.stage == .awaitAddr && isMarker .ch3 f
  | .bind0Ch4 f => m.stage == .awaitAddr && isMarker .ch4 f
  | .bindBlk1 f => m.stage == .awaitHop1 && isHopBlock m.cksum 0x00#8 f
  | .bindBlk2 f => m.stage == .awaitHop2 && isHopBlock m.cksum 0x01#8 f
  | .bindBlk3 f => m.stage == .awaitHop3 && isHopBlock m.cksum 0x02#8 f
  | .bindReject f => m.stage != .idle && !stageAccepts m f
  | .dataStick f => m.stage == .idle && f[7] == c.stickId m.variant
  | .dataFsEn f => m.stage == .idle && f[7] == c.failsafeId m.variant && f[8] == c.fsEnableMarker
  | .dataFsDis f => m.stage == .idle && f[7] == c.failsafeId m.variant && f[8] != c.fsEnableMarker
  | .dataUnknown f => m.stage == .idle && f[7] != c.stickId m.variant && f[7] != c.failsafeId m.variant
  | .dispTick _ => true
  | .dispButton => true
  | .dispBind => true
  | .dispRx => true
  | .dispFs => true
  | .dispHop => true
  | .dispLed => true
  | .bindEnter => true
  | .armBeacon => true
  | .bindRestart => true
  | .bindCommit => true
  | .bindParse _ => true
  | .rearm => true
  | .bindTimeout => true
  | .hopResync => true
  | .hopValid => true
  | .publish _ => true
  | .pulseEnter _ => true
  | .pulseOff _ => true
  | .boot => true
  | .radioInit => true
  | .ce _ => true
  | .setAddr _ => true
  | .setChannel _ => true
  | .flushRx => true
  | .clearIrq => true
  | .hopTimerStart _ => true
  | .hopTimerStop => true
  | .nvSave _ => true
  | .ptimerStop => true
  | .ptimerLoad _ => true
  | .ptimerStart => true
  | .cond code => 1 ≤ code.toNat && code.toNat ≤ 6

end Sys2Proof
end

