-- ==== Sys2Proof/Decode.lean ====
section
/-! DEFINITION. Decoding and encoding: input events (spec/30_encoding.md R73, R74), frames (R86), dispatch phases
(spec/40_dispatch.md R94), output commands and trace conditions (spec/48_output_commands.md R148, R150), each from the
bytes in the order the block's interface carries them; the byte-order helpers (spec/20_memory.md R54); and the encoder. -/

namespace Sys2Proof

/-- Bits 7..0 of a u16: the byte that comes first in every multi-byte field (R54). -/
def lo8 (v : U16) : Byte := v.extractLsb' 0 8

/-- Bits 15..8 of a u16 (R54). -/
def hi8 (v : U16) : Byte := v.extractLsb' 8 8

/-- `hi ‖ lo`, the u16 `hi * 256 + lo` (R13). -/
def hilo (hi lo : Byte) : U16 := hi ++ lo

/-- The numeric code of a variant, CH3 = 0 and CH4 = 1 (R30). -/
def Variant.code : Variant → Nat
  | .ch3 => 0
  | .ch4 => 1

/-- The numeric code of a stage, IDLE = 0 to AWAIT_HOP3 = 4 (R29). -/
def BindStage.code : BindStage → Nat
  | .idle => 0
  | .awaitAddr => 1
  | .awaitHop1 => 2
  | .awaitHop2 => 3
  | .awaitHop3 => 4

/-- The numeric code of a link status (R28). -/
def LinkStatus.code : LinkStatus → Nat
  | .idle => 0
  | .receiving => 1
  | .failsafe => 2
  | .binding => 3

/-- The numeric code of a pulse-train step, OFF = 4 (R31). -/
def PulseState.code : PulseState → Nat
  | .ch k => k.val
  | .off => 4

/-- The numeric code of a condition (R165). -/
def CondCode.code : CondCode → BitVec 4
  | .bindMalformed => 1#4
  | .bindTimeout => 2#4
  | .hopResync => 3#4
  | .failsafeEnter => 4#4
  | .noRecord => 5#4
  | .frameUnknown => 6#4

/-- The condition of a code; code 0 and codes 7..15 name none (R165). -/
def condOfCode (code : BitVec 4) : Option CondCode :=
  match code.toNat with
  | 1 => some .bindMalformed
  | 2 => some .bindTimeout
  | 3 => some .hopResync
  | 4 => some .failsafeEnter
  | 5 => some .noRecord
  | 6 => some .frameUnknown
  | _ => none

/-- The argument byte of HOP_TIMER_START: 0 = FIRST, 1 = STEADY (R157). -/
def HopInterval.byte : HopInterval → Byte
  | .first => 0x00#8
  | .steady => 0x01#8

/-! ### Frames -/

/-- The variant a marker frame selects, if the frame is a marker (R76, R85): P and M are tested together. -/
def markerVariant (f : Frame) : Option Variant :=
  if f[0] = 0xFF#8 ∧ f[1] = 0xAA#8 ∧ f[2] = 0x55#8 then some .ch3
  else if f[0] = 0xFF#8 ∧ f[1] = 0xAB#8 ∧ f[2] = 0x56#8 then some .ch4
  else none

/-- A hop block's test (R82, R86): the checksum little-endian in bytes 0 and 1, the sequence byte in byte 2. -/
def hopBlockMatches (cksum : U16) (seq : Nat) (f : Frame) : Bool :=
  f[0] == lo8 cksum && f[1] == hi8 cksum && f[2] == BitVec.ofNat 8 seq

/-- `decode(S, f)` of R86: the one frame operation of f in a mode; the first matching line wins. In a hop stage the
expected sequence byte is `code(stage) - 2`. -/
def decodeFrame (c : Cfg) (m : FrameMode) (f : Frame) : FrameOp :=
  match m.stage with
  | .awaitAddr =>
    match markerVariant f with
    | some .ch3 => .bind0Ch3
    | some .ch4 => .bind0Ch4
    | none => .bindReject
  | .awaitHop1 => if hopBlockMatches m.cksum (m.stage.code - 2) f then .bindBlk1 else .bindReject
  | .awaitHop2 => if hopBlockMatches m.cksum (m.stage.code - 2) f then .bindBlk2 else .bindReject
  | .awaitHop3 => if hopBlockMatches m.cksum (m.stage.code - 2) f then .bindBlk3 else .bindReject
  | .idle =>
    if f[7] = c.stickId m.variant then .dataStick
    else if f[7] = c.failsafeId m.variant ∧ f[8] = c.fsEnableMarker then .dataFsEn
    else if f[7] = c.failsafeId m.variant then .dataFsDis
    else .dataUnknown

/-- The operation of the table that a frame operation and its frame make. -/
def frameInstr (op : FrameOp) (f : Frame) : Instr :=
  match op with
  | .bind0Ch3 => .bind0Ch3 f
  | .bind0Ch4 => .bind0Ch4 f
  | .bindBlk1 => .bindBlk1 f
  | .bindBlk2 => .bindBlk2 f
  | .bindBlk3 => .bindBlk3 f
  | .bindReject => .bindReject f
  | .dataStick => .dataStick f
  | .dataFsEn => .dataFsEn f
  | .dataFsDis => .dataFsDis f
  | .dataUnknown => .dataUnknown f

/-! ### Decoding bytes -/

/-- The first n bytes as a byte string, with the rest. -/
def takeBytes (n : Nat) (bs : List Byte) : Except DecodeError (Vector Byte n × List Byte) :=
  if h : n ≤ bs.length then .ok (⟨(bs.take n).toArray, by simp; omega⟩, bs.drop n) else .error .truncated

/-- An input event (R73): code in bits 7..4, operand in bits 3..0; a reserved code or operand encodes no event (R74). -/
def decodeEvent : List Byte → Except DecodeError (Instr × List Byte)
  | [] => .error .truncated
  | b :: rest =>
    match (b.extractLsb' 4 4).toNat, (b.extractLsb' 0 4).toNat with
    | 0, 0 => .ok (.reset, rest)
    | 1, 0 => .ok (.tick false, rest)
    | 1, 1 => .ok (.tick true, rest)
    | 2, 0 => (takeBytes 10 rest).map fun (f, rest) => (.rxf f, rest)
    | 3, 0 => .ok (.rirq, rest)
    | 4, 0 => .ok (.hexp, rest)
    | 5, 0 => .ok (.pexp, rest)
    | 6, 0 => .ok (.tstart, rest)
    | code, _ => if 7 ≤ code then .error (.reservedEvent b) else .error (.reservedOperand b)

/-- A dispatch phase number, 1 to 7 (R94); the button sample of the TICK being handled comes with the space (R145). -/
def decodePhase (sample : Bool) : List Byte → Except DecodeError (Instr × List Byte)
  | [] => .error .truncated
  | b :: rest =>
    match b.toNat with
    | 1 => .ok (.dispTick sample, rest)
    | 2 => .ok (.dispButton, rest)
    | 3 => .ok (.dispBind, rest)
    | 4 => .ok (.dispRx, rest)
    | 5 => .ok (.dispFs, rest)
    | 6 => .ok (.dispHop, rest)
    | 7 => .ok (.dispLed, rest)
    | _ => .error (.reservedPhase b)

/-- The one argument byte of CE (R152): 0 or 1. -/
def decodeCeArg : List Byte → Except DecodeError (Instr × List Byte)
  | [] => .error .truncated
  | b :: rest =>
    if b = 0x00#8 then .ok (.ce false, rest) else if b = 0x01#8 then .ok (.ce true, rest) else .error (.badArgument b)

/-- The one argument byte of HOP_TIMER_START (R157): 0 = FIRST, 1 = STEADY. -/
def decodeHopStartArg : List Byte → Except DecodeError (Instr × List Byte)
  | [] => .error .truncated
  | b :: rest =>
    if b = 0x00#8 then .ok (.hopTimerStart .first, rest)
    else if b = 0x01#8 then .ok (.hopTimerStart .steady, rest) else .error (.badArgument b)

/-- An output command (R81, R150): a code byte, then the argument bytes the code alone fixes. -/
def decodeCommand : List Byte → Except DecodeError (Instr × List Byte)
  | [] => .error .truncated
  | b :: rest =>
    match b.toNat with
    | 0x10 => .ok (.radioInit, rest)
    | 0x11 => decodeCeArg rest
    | 0x12 => (takeBytes 5 rest).map fun (a, rest) => (.setAddr a, rest)
    | 0x13 => (takeBytes 1 rest).map fun (v, rest) => (.setChannel v[0], rest)
    | 0x14 => .ok (.flushRx, rest)
    | 0x15 => .ok (.clearIrq, rest)
    | 0x20 => decodeHopStartArg rest
    | 0x21 => .ok (.hopTimerStop, rest)
    | 0x30 => (takeBytes 26 rest).map fun (r, rest) => (.nvSave r, rest)
    | 0x40 => .ok (.ptimerStop, rest)
    | 0x41 => (takeBytes 2 rest).map fun (v, rest) => (.ptimerLoad (hilo v[1] v[0]), rest)
    | 0x42 => .ok (.ptimerStart, rest)
    | _ => .error (.reservedCommand b)

/-- A condition entry of the trace (R148): `0xF0 | code`, no bytes after it. -/
def decodeCondition : List Byte → Except DecodeError (Instr × List Byte)
  | [] => .error .truncated
  | b :: rest => if b.extractLsb' 4 4 = 0xF#4 then .ok (.cond (b.extractLsb' 0 4), rest) else .error (.notACondition b)

/-- The operation the bytes begin with, read in one of the table's encoding spaces, and the bytes after it. -/
def decode (c : Cfg) (p : Port) (m : FrameMode) (bs : List Byte) : Except DecodeError (Instr × List Byte) :=
  match p with
  | .event => decodeEvent bs
  | .frame => (takeBytes 10 bs).map fun (f, rest) => (frameInstr (decodeFrame c m f) f, rest)
  | .phase sample => decodePhase sample bs
  | .command => decodeCommand bs
  | .condition => decodeCondition bs

/-! ### Encoding -/

/-- A command's code byte and argument bytes (R150). -/
def commandBytes : Command → List Byte
  | .radioInit => [0x10#8]
  | .ce b => [0x11#8, if b then 0x01#8 else 0x00#8]
  | .setAddr a => 0x12#8 :: a.toList
  | .setChannel ch => [0x13#8, ch]
  | .flushRx => [0x14#8]
  | .clearIrq => [0x15#8]
  | .hopTimerStart i => [0x20#8, i.byte]
  | .hopTimerStop => [0x21#8]
  | .nvSave r => 0x30#8 :: r.toList
  | .ptimerStop => [0x40#8]
  | .ptimerLoad v => [0x41#8, lo8 v, hi8 v]
  | .ptimerStart => [0x42#8]

/-- The bytes of a trace entry (R148): a command's bytes, or `0xF0 | condition code`, the info left out. -/
def traceEntryBytes : TraceEntry → List Byte
  | .cmd cmd => commandBytes cmd
  | .cond code _ => [0xF#4 ++ code.code]

/-- The space an operation is encoded in and its bytes there, from the same tables as `decode`; a helper operation has no
encoding (opcode_table.json: "none: an internal operation"). A phase other than DISP_TICK reads the same whichever sample
its space holds. -/
def encode : Instr → Option (Port × List Byte)
  | .reset => some (.event, [0x00#8])
  | .tick b => some (.event, [if b then 0x11#8 else 0x10#8])
  | .rxf f => some (.event, 0x20#8 :: f.toList)
  | .rirq => some (.event, [0x30#8])
  | .hexp => some (.event, [0x40#8])
  | .pexp => some (.event, [0x50#8])
  | .tstart => some (.event, [0x60#8])
  | .bind0Ch3 f => some (.frame, f.toList)
  | .bind0Ch4 f => some (.frame, f.toList)
  | .bindBlk1 f => some (.frame, f.toList)
  | .bindBlk2 f => some (.frame, f.toList)
  | .bindBlk3 f => some (.frame, f.toList)
  | .bindReject f => some (.frame, f.toList)
  | .dataStick f => some (.frame, f.toList)
  | .dataFsEn f => some (.frame, f.toList)
  | .dataFsDis f => some (.frame, f.toList)
  | .dataUnknown f => some (.frame, f.toList)
  | .dispTick b => some (.phase b, [0x01#8])
  | .dispButton => some (.phase false, [0x02#8])
  | .dispBind => some (.phase false, [0x03#8])
  | .dispRx => some (.phase false, [0x04#8])
  | .dispFs => some (.phase false, [0x05#8])
  | .dispHop => some (.phase false, [0x06#8])
  | .dispLed => some (.phase false, [0x07#8])
  | .bindEnter => none
  | .armBeacon => none
  | .bindRestart => none
  | .bindCommit => none
  | .bindParse _ => none
  | .rearm => none
  | .bindTimeout => none
  | .hopResync => none
  | .hopValid => none
  | .publish _ => none
  | .pulseEnter _ => none
  | .pulseOff _ => none
  | .boot => none
  | .radioInit => some (.command, commandBytes .radioInit)
  | .ce b => some (.command, commandBytes (.ce b))
  | .setAddr a => some (.command, commandBytes (.setAddr a))
  | .setChannel ch => some (.command, commandBytes (.setChannel ch))
  | .flushRx => some (.command, commandBytes .flushRx)
  | .clearIrq => some (.command, commandBytes .clearIrq)
  | .hopTimerStart i => some (.command, commandBytes (.hopTimerStart i))
  | .hopTimerStop => some (.command, commandBytes .hopTimerStop)
  | .nvSave r => some (.command, commandBytes (.nvSave r))
  | .ptimerStop => some (.command, commandBytes .ptimerStop)
  | .ptimerLoad v => some (.command, commandBytes (.ptimerLoad v))
  | .ptimerStart => some (.command, commandBytes .ptimerStart)
  | .cond code => some (.condition, [0xF#4 ++ code])

/-! ### Words of the opcode table

The table numbers phases, commands and conditions in spaces of their own, and five command codes (0x10, 0x11, 0x20, 0x30,
0x40) are also event bytes. A word given without its space is read as an event where it is one, else as a command, else as
a condition, else as a phase; ten bytes are a frame (log entry 6). -/

/-- The bytes of a word whose bit 0 is the least significant bit of the first byte. -/
def wordBytes (n w : Nat) : List Byte :=
  match n with
  | 0 => []
  | n + 1 => BitVec.ofNat 8 w :: wordBytes n (w / 256)

/-- The longest encoding: NV_SAVE, a code byte and 26 argument bytes (R150). -/
def longestBytes : Nat := 27

/-- The mode in which a frame's fixed bytes are those of a row: a marker where AWAIT_ADDR waits for it, a hop block where
the stage of its sequence byte waits for its checksum, every other frame in data mode with variant CH3 (R87). -/
def rowMode (f : Frame) : FrameMode :=
  match markerVariant f, f[2].toNat with
  | some _, _ => ⟨.awaitAddr, 0#16, .ch3⟩
  | none, 0 => ⟨.awaitHop1, hilo f[1] f[0], .ch3⟩
  | none, 1 => ⟨.awaitHop2, hilo f[1] f[0], .ch3⟩
  | none, 2 => ⟨.awaitHop3, hilo f[1] f[0], .ch3⟩
  | none, _ => ⟨.idle, 0#16, .ch3⟩

/-- A word read outside any run: its space, the mode (of a frame), the operation, and its own bytes. -/
structure TableWord where
  port : Port
  mode : FrameMode
  instr : Instr
  bytes : List Byte

/-- The word read in one space, in a given mode, if it decodes there. -/
def readWordAt (p : Port) (m : FrameMode) (bs : List Byte) : Option TableWord :=
  match decode Config.cfg p m bs with
  | .ok (i, rest) => some ⟨p, m, i, bs.take (bs.length - rest.length)⟩
  | .error _ => none

/-- A ten-byte word, read as a frame in the mode of its row. -/
def readFrameWord (bs : List Byte) : Option TableWord :=
  match takeBytes 10 bs with
  | .ok (f, _) => readWordAt .frame (rowMode f) bs
  | .error _ => none

/-- A word of the opcode table read in the first space it decodes in. -/
def readTableWord (nbits w : Nat) : Option TableWord :=
  let bs := wordBytes longestBytes (w % 2 ^ nbits)
  let m : FrameMode := ⟨.idle, 0#16, .ch3⟩
  if nbits = 80 then readFrameWord bs
  else
    ((readWordAt .event m bs).or ((readWordAt .command m bs).or
      ((readWordAt .condition m bs).or (readWordAt (.phase false) m bs))))

/-- The operation the decoder reads from a word of the opcode table. -/
def decodeTableWord (nbits w : Nat) : Option Instr := (readTableWord nbits w).map (·.instr)

end Sys2Proof
end

