-- ==== Sys2Proof/Machine/Operands.lean ====
section
/-! DEFINITION. Every operand form of the block: the fields of a frame (spec/30_encoding.md R82, R83, R84), of a bind record
(R79) and of a channel slot (spec/43_packet_receiver.md R124), and the countdown and hop-index arithmetic
(spec/00_scope.md R17). -/

namespace Sys2Proof.Machine

/-- `satdec`, "saturating-at-zero" (R17). -/
def satdec (x : Nat) : Nat := if x = 0 then 0 else x - 1

/-- `(i + 1) mod 20`, the hop-index advance (R17). -/
def nextHopIndex (i : BitVec 5) : BitVec 5 := BitVec.ofNat 5 ((i.toNat + 1) % 20)

/-- The hop channel of an index; the table has entries 0..19 and every index the block uses is one of them (R48), so what a
larger index gives (entry 0) is never read. -/
def hopChannel (t : HopTable) (i : BitVec 5) : Byte := if h : i.toNat < 20 then t[i.toNat] else t[0]

/-- The bind checksum of a marker frame: the sum of its bytes 3..7 as u16 (R82). -/
def addressSum (f : Frame) : U16 :=
  f[3].setWidth 16 + f[4].setWidth 16 + f[5].setWidth 16 + f[6].setWidth 16 + f[7].setWidth 16

/-- What a marker writes into the record: a0..a4 to bytes 0..4 and the protocol identifier P to byte 25 (R104). -/
def recordMarker (f : Frame) (r : BindRecord) : BindRecord :=
  Vector.ofFn fun j => if h : j.val < 5 then f[3 + j.val] else if j.val = 25 then f[1] else r[j]

/-- What hop block s writes into the record: `len` bytes, from frame byte 3, to the hop entries from `base` (R84, R105). -/
def recordBlock (base len : Nat) (f : Frame) (r : BindRecord) : BindRecord :=
  Vector.ofFn fun j =>
    if h : 5 + base ≤ j.val ∧ j.val < 5 + base + len ∧ 3 + (j.val - (5 + base)) < 10 then
      f[3 + (j.val - (5 + base))]'h.2.2
    else r[j]

/-- The address of a record: bytes 0..4 (R79). -/
def recordAddress (r : BindRecord) : Address := Vector.ofFn fun i => r[i.val]

/-- The hop table of a record: bytes 5..24 (R79). -/
def recordHops (r : BindRecord) : HopTable := Vector.ofFn fun i => r[5 + i.val]

/-- The variant a record selects: byte 25 = 0xAB selects CH4, every other value CH3 (R108). -/
def recordVariant (r : BindRecord) : Variant := if r[25] = 0xAB#8 then .ch4 else .ch3

/-- `chan(f, k)` (R83): little-endian, channel 3 from the bytes 6 and 9, which are not adjacent (R55). -/
def chan (f : Frame) : Fin 4 → U16
  | 0 => hilo f[1] f[0]
  | 1 => hilo f[3] f[2]
  | 2 => hilo f[5] f[4]
  | 3 => hilo f[9] f[6]

/-- The channel values of a data frame; only entries k < N(variant) are ever used (R83). -/
def frameChannels (f : Frame) : ChannelSet := Vector.ofFn (chan f)

/-- A slot with its entries k < n replaced; the others keep their value (R122, R124). -/
def overlay (n : Nat) (vals old : ChannelSet) : ChannelSet := Vector.ofFn fun k => if k.val < n then vals[k] else old[k]

/-- The slot that is not active: `1 - psel` (R124). -/
def otherSlot (s : Fin 2) : Fin 2 := 1 - s

/-- The values the failsafe phase publishes (R126): the configured ones when enabled, else CENTER of the variant. -/
def fallback (c : Cfg) (s : State) : ChannelSet :=
  if s.fsEnabled then s.fsValues else Vector.replicate 4 (c.center s.variant)

end Sys2Proof.Machine
end

