-- ==== Sys2Proof/Machine/Ops.lean ====
section
/-! DEFINITION. The primitives of spec/00_scope.md R15: `emit`, `raise`, the reads of the radio queue and of storage; the
radio's own effect of a frame arriving (spec/40_dispatch.md R96); and `publish`, the one write of the PulseBuffer
(spec/43_packet_receiver.md R124).

The block has no traps. `raise` is the one shared operation for everything the spec calls a condition: it appends to the
trace, "never transfers control and never stops the block" (R15, R164). Entering an interrupt handler saves nothing and
returning restores nothing (R174, R175), so neither has an operation here: a handler is the meaning of its event. -/

namespace Sys2Proof.Machine

/-- Append one entry to the output trace (R148). -/
def record (e : TraceEntry) (s : State) : State := { s with trace := s.trace ++ [e] }

/-- `raise Cond(info)` (R15, R164). -/
def raise (code : CondCode) (info : CondInfo) (s : State) : State := record (.cond code info) s

/-- What a command does to the collaborator state it names, at once and completely (R149, R151 to R162). -/
def applyCommand (c : Cfg) (cmd : Command) (s : State) : State :=
  match cmd with
  | .radioInit => { s with radioCfg := radioInitCfg c }
  | .ce b => { s with radioCe := b }
  | .setAddr a => { s with radioAddr := a }
  | .setChannel ch => { s with radioChannel := ch }
  | .flushRx => { s with rxq := [] }
  | .clearIrq => s
  | .hopTimerStart i => { s with hopTimerRunning := true, hopTimerInterval := i }
  | .hopTimerStop => { s with hopTimerRunning := false }
  | .nvSave r => { s with nv := some r }
  | .ptimerStop => { s with ptimerRunning := false }
  | .ptimerLoad v => { s with ptimerReload := v }
  | .ptimerStart => { s with ptimerRunning := true }

/-- `emit CMD(args)` (R15): the command's effect, and the command in the trace. -/
def emit (c : Cfg) (cmd : Command) (s : State) : State := record (.cmd cmd) (applyCommand c cmd s)

/-- `RxRead()` (R58): the oldest frame, removed; none when `RxEmpty()`. -/
def rxRead (s : State) : Option (Frame × State) :=
  match s.rxq with
  | [] => none
  | f :: q => some (f, { s with rxq := q })

/-- `NvLoad()` (R59). -/
def nvLoad (s : State) : Option BindRecord := s.nv

/-- A frame enters the radio's receive queue (R96): lost while chip-enable is low, lost when the queue is full. -/
def radioReceive (c : Cfg) (f : Frame) (s : State) : State :=
  if s.radioCe = false then s
  else if s.rxq.length = c.rxQueueDepth then s
  else { s with rxq := s.rxq ++ [f] }

/-- `publish(vals)` (R124): entries k < N(variant) of the inactive slot, then the selector flip, last (R62, R189). -/
def writePulseBuffer (vals : ChannelSet) (s : State) : State :=
  let i := otherSlot s.psel
  let slot := overlay (channelCount s.variant) vals s.pbuf[i]
  { s with pbuf := s.pbuf.set i.val slot i.isLt, psel := i }

end Sys2Proof.Machine
end

