-- ==== Sys2Proof/Machine/Bind.lean ====
section
/-! DEFINITION. The Bind Handshake (spec/41_bind_handshake.md): entry, restart, the frame operations of bind mode, commit,
reparse, re-arm and timeout. The bind phase itself is in Drain.lean. -/

namespace Sys2Proof.Machine

/-- `arm_beacon()` (R101): chip-enable low around the reprogramming, the queue flushed before it goes high (R196). -/
def armBeacon (c : Cfg) (s : State) : State :=
  let s := emit c (.ce false) s
  let s := emit c (.setAddr c.beaconAddr) s
  let s := emit c (.setChannel c.beaconChannel) s
  let s := emit c .flushRx s
  let s := emit c .clearIrq s
  let s := clearRadioFlag s
  emit c (.ce true) s

/-- `bind_enter()` (R100). -/
def bindEnter (c : Cfg) (s : State) : State :=
  let s := { s with bindSavedStatus := s.status }
  let s := { s with status := .binding, bindStage := .awaitAddr, bindTimer := c.bindTimeoutTicks }
  let s := emit c .hopTimerStop s
  let s := clearHopFlag s
  armBeacon c s

/-- `bind_restart()` (R102): the saved status, the status, the record and the checksum are unchanged. -/
def bindRestart (c : Cfg) (s : State) : State :=
  armBeacon c { s with bindStage := .awaitAddr, bindTimer := c.bindTimeoutTicks }

/-- `bind_parse(rec)` (R108): the only writer of the live configuration's variant besides a boot without a record (R34). -/
def bindParse (r : BindRecord) (s : State) : State :=
  { s with modelAddr := recordAddress r, hopSeq := recordHops r, variant := recordVariant r }

/-- `rearm()` (R109). -/
def rearm (c : Cfg) (s : State) : State :=
  let s := emit c (.ce false) s
  let s := emit c (.setAddr s.modelAddr) s
  let s := { s with hopIndex := 0#5, missCount := 0#5 }
  let s := emit c .hopTimerStop s
  let s := clearHopFlag s
  let s := emit c (.setChannel s.hopSeq[0]) s
  let s := emit c .flushRx s
  let s := emit c .clearIrq s
  let s := clearRadioFlag s
  emit c (.ce true) s

/-- `bind_commit()` (R107): the record in hand is saved and parsed. -/
def bindCommit (c : Cfg) (s : State) : State :=
  let r := s.bindRec
  let s := emit c (.nvSave r) s
  let s := bindParse r s
  let s := { s with status := .idle, bindStage := .idle }
  rearm c s

/-- `bind_timeout()` (R110): the old configuration is kept and re-armed. -/
def bindTimeout (c : Cfg) (s : State) : State :=
  let s := { s with bindStage := .idle, status := s.bindSavedStatus }
  let s := raise .bindTimeout .nothing s
  rearm c s

/-- The marker's writes (R104): bytes 8 and 9 are not read, the live variant is untouched. -/
def bindMarker0 (f : Frame) (s : State) : State :=
  { s with bindRec := recordMarker f s.bindRec, bindCksum := addressSum f, bindStage := .awaitHop1 }

/-- BIND_BLK(f) for sequence byte 0 (R105): 7 bytes to hop entries 0..6. -/
def bindBlock1 (f : Frame) (s : State) : State :=
  { s with bindRec := recordBlock 0 7 f s.bindRec, bindStage := .awaitHop2 }

/-- BIND_BLK(f) for sequence byte 1 (R105): 7 bytes to hop entries 7..13. -/
def bindBlock2 (f : Frame) (s : State) : State :=
  { s with bindRec := recordBlock 7 7 f s.bindRec, bindStage := .awaitHop3 }

/-- BIND_BLK(f) for sequence byte 2 (R105): 6 bytes to hop entries 14..19, byte 9 not read, then the commit. -/
def bindBlock3 (c : Cfg) (f : Frame) (s : State) : State :=
  bindCommit c { s with bindRec := recordBlock 14 6 f s.bindRec }

/-- BIND_REJECT (R106): "no state change" but for the condition in the trace. -/
def bindRejectFrame (f : Frame) (s : State) : State := raise .bindMalformed (.stageFrame s.bindStage f) s

/-- BIND0_3CH (R104). -/
def execBind0Ch3 (f : Frame) (s : State) : Answer := .next (bindMarker0 f s)

/-- BIND0_4CH (R104). -/
def execBind0Ch4 (f : Frame) (s : State) : Answer := .next (bindMarker0 f s)

/-- BIND_BLK1 (R105). -/
def execBindBlk1 (f : Frame) (s : State) : Answer := .next (bindBlock1 f s)

/-- BIND_BLK2 (R105). -/
def execBindBlk2 (f : Frame) (s : State) : Answer := .next (bindBlock2 f s)

/-- BIND_BLK3 (R105, R107). -/
def execBindBlk3 (f : Frame) (s : State) : Answer := .next (bindBlock3 Config.cfg f s)

/-- BIND_REJECT (R106). -/
def execBindReject (f : Frame) (s : State) : Answer := .next (bindRejectFrame f s)

/-- BIND_ENTER (R100). -/
def execBindEnter (s : State) : Answer := .next (bindEnter Config.cfg s)

/-- ARM_BEACON (R101). -/
def execArmBeacon (s : State) : Answer := .next (armBeacon Config.cfg s)

/-- BIND_RESTART (R102). -/
def execBindRestart (s : State) : Answer := .next (bindRestart Config.cfg s)

/-- BIND_COMMIT (R107). -/
def execBindCommit (s : State) : Answer := .next (bindCommit Config.cfg s)

/-- BIND_PARSE (R108). -/
def execBindParse (r : BindRecord) (s : State) : Answer := .next (bindParse r s)

/-- REARM (R109). -/
def execRearm (s : State) : Answer := .next (rearm Config.cfg s)

/-- BIND_TIMEOUT (R110). -/
def execBindTimeout (s : State) : Answer := .next (bindTimeout Config.cfg s)

end Sys2Proof.Machine
end

