-- ==== Sys2Proof/Machine/Boot.lean ====
section
/-! DEFINITION. Reset and boot (spec/70_reset_and_hazards.md R184 to R186). -/

namespace Sys2Proof.Machine

/-- The live configuration boot establishes (R186): the stored record's, or zeros and CH3 with NO_RECORD raised. -/
def bootConfig (s : State) : State :=
  match nvLoad s with
  | none =>
    raise .noRecord .nothing
      { s with modelAddr := Vector.replicate 5 0#8, hopSeq := Vector.replicate 20 0#8, variant := .ch3 }
  | some r => bindParse r s

/-- `boot()` (R186). -/
def bootBlock (c : Cfg) (s : State) : State :=
  let s := bootConfig s
  let s := { setFsEnabled false s with fsValues := Vector.replicate 4 (c.center s.variant) }
  let s := emit c .radioInit s
  rearm c s

/-- The reset column of 10_state.md (R184), with the PulseBuffer and the selector at a given draw (R185). `nv` is kept; so
are the model's own `trace`, `input` and `port`, and the fields the boot writes. -/
def resetFields (pb : PulseBuffer) (sel : Fin 2) (s : State) : State :=
  { s with
    bindStage := .idle
    bindCksum := 0#16
    bindRec := Vector.replicate 26 0#8
    bindSavedStatus := .idle
    bindTimer := 0
    hopIndex := 0#5
    missCount := 0#5
    hopFlag := false
    hopTimerRunning := false
    hopTimerInterval := .first
    radioFlag := false
    everReceived := false
    fsTimer := 0
    status := .idle
    pbuf := pb
    psel := sel
    pstate := .off
    ptimerRunning := false
    ptimerReload := 0#16
    pin := Vector.replicate 4 false
    led := false
    ledLast := none
    blinkTimer := 0
    btnPrev := false
    btnDeb := false
    bindRequest := false
    radioCe := false
    rxq := []
    draws := s.draws + 1 }

/-- RESET (R184): reset values, then boot, as one atomic step. -/
def resetBlock (c : Cfg) (pb : PulseBuffer) (sel : Fin 2) (s : State) : State := bootBlock c (resetFields pb sel s)

/-- RESET (R184): the next free draw gives the PulseBuffer and the selector. -/
def execReset (s : State) : Answer :=
  .next (resetBlock Config.cfg (Config.pulseBufferDraw s.draws) (Config.selectorDraw s.draws) s)

/-- BOOT (R186). -/
def execBoot (s : State) : Answer := .next (bootBlock Config.cfg s)

end Sys2Proof.Machine
end

