-- ==== Sys2Proof/Machine/Commands.lean ====
section
/-! DEFINITION. The output commands (spec/48_output_commands.md R150 to R162) and the condition entry of the trace (R148,
R165) as operations of their own. -/

namespace Sys2Proof.Machine

/-- RADIO_INIT (R151). -/
def execRadioInit (s : State) : Answer := .next (emit Config.cfg .radioInit s)

/-- CE(b) (R152). -/
def execCe (b : Bool) (s : State) : Answer := .next (emit Config.cfg (.ce b) s)

/-- SET_ADDR(a0..a4) (R153). -/
def execSetAddr (a : Address) (s : State) : Answer := .next (emit Config.cfg (.setAddr a) s)

/-- SET_CHANNEL(c) (R154): no range check. -/
def execSetChannel (ch : Byte) (s : State) : Answer := .next (emit Config.cfg (.setChannel ch) s)

/-- FLUSH_RX (R155): `radio_flag` is not changed. -/
def execFlushRx (s : State) : Answer := .next (emit Config.cfg .flushRx s)

/-- CLEAR_IRQ (R156): no change of modelled state, recorded in the trace. -/
def execClearIrq (s : State) : Answer := .next (emit Config.cfg .clearIrq s)

/-- HOP_TIMER_START(i) (R157). -/
def execHopTimerStart (i : HopInterval) (s : State) : Answer := .next (emit Config.cfg (.hopTimerStart i) s)

/-- HOP_TIMER_STOP (R158): `hop_flag` and the interval are left as they are. -/
def execHopTimerStop (s : State) : Answer := .next (emit Config.cfg .hopTimerStop s)

/-- NV_SAVE(r0..r25) (R162): atomic, always succeeds. -/
def execNvSave (r : BindRecord) (s : State) : Answer := .next (emit Config.cfg (.nvSave r) s)

/-- PTIMER_STOP (R159). -/
def execPtimerStop (s : State) : Answer := .next (emit Config.cfg .ptimerStop s)

/-- PTIMER_LOAD(v) (R160). -/
def execPtimerLoad (v : U16) (s : State) : Answer := .next (emit Config.cfg (.ptimerLoad v) s)

/-- PTIMER_START (R161). -/
def execPtimerStart (s : State) : Answer := .next (emit Config.cfg .ptimerStart s)

/-- COND (R148, R165): the entry of the code is appended, its info unknown (the entry's byte does not carry it, log entry
16); a code that is never raised has no step. -/
def execCond (code : BitVec 4) (s : State) : Answer :=
  match condOfCode code with
  | some cc => .next (raise cc .nothing s)
  | none => .refused (.reservedCondition code)

end Sys2Proof.Machine
end

