-- ==== Sys2Proof/Machine/Hop.lean ====
section
/-! DEFINITION. The Hop Scheduler (spec/42_hop_scheduler.md R113 to R117). -/

namespace Sys2Proof.Machine

/-- The hop handler (R114): the timer "reloads itself" with the steady interval. -/
def hopExpire (s : State) : State := { setHopFlag s with hopTimerInterval := .steady }

/-- `hop_resync()` (R116): the timer stays stopped, and the miss reset is the last write. -/
def hopResync (c : Cfg) (s : State) : State :=
  let s := emit c .hopTimerStop s
  let s := { s with hopIndex := 0#5 }
  let s := emit c .flushRx s
  let s := emit c (.setChannel s.hopSeq[0]) s
  let s := { s with missCount := 0#5 }
  raise .hopResync .nothing s

/-- `hop_valid()` (R117): the hop index is not changed; the pending request is kept unless `RESTART_CLEARS_HOP_FLAG`. -/
def hopValid (c : Cfg) (s : State) : State :=
  let s := { s with missCount := 0#5 }
  let s := emit c .hopTimerStop s
  let s := emit c (.hopTimerStart .first) s
  if c.restartClearsHopFlag then clearHopFlag s else s

/-- One miss counted and, past the threshold (strictly, R115), a resync, else an advance to the next channel. -/
def hopMiss (c : Cfg) (s : State) : State :=
  let s := { s with missCount := s.missCount + 1#5 }
  if hopMissThreshold < s.missCount.toNat then hopResync c s
  else
    let s := { s with hopIndex := nextHopIndex s.hopIndex }
    emit c (.setChannel (hopChannel s.hopSeq s.hopIndex)) s

/-- `hop_phase()` (R115): the flag is cleared before the miss is counted. -/
def hopPhase (c : Cfg) (s : State) : State :=
  if s.hopFlag then hopMiss c (clearHopFlag s) else s

/-- HEXP (R114): no event while the hop timer is stopped (R168). -/
def execHexp (s : State) : Answer :=
  if s.hopTimerRunning then .next (hopExpire s) else .refused .hopTimerStopped

/-- DISP_HOP (R115). -/
def execDispHop (s : State) : Answer := .next (hopPhase Config.cfg s)

/-- HOP_RESYNC (R116). -/
def execHopResync (s : State) : Answer := .next (hopResync Config.cfg s)

/-- HOP_VALID (R117). -/
def execHopValid (s : State) : Answer := .next (hopValid Config.cfg s)

end Sys2Proof.Machine
end

