-- ==== Sys2Proof/Machine/Receiver.lean ====
section
/-! DEFINITION. The Packet Receiver's frame operations and PUBLISH (spec/43_packet_receiver.md R121 to R124). The receiver
phase itself is in Drain.lean. -/

namespace Sys2Proof.Machine

/-- DATA_STICK(f) (R121): recovery from Failsafe is this operation (R128). -/
def stickFrame (c : Cfg) (f : Frame) (s : State) : State :=
  let s := writePulseBuffer (frameChannels f) s
  let s := { s with status := .receiving, fsTimer := c.fsTimeoutTicks }
  let s := setEverReceived s
  hopValid c s

/-- DATA_FS_EN(f) (R122): entries k ≥ N(variant) of `fs_values` are unchanged. -/
def failsafeEnableFrame (c : Cfg) (f : Frame) (s : State) : State :=
  let s := setFsEnabled true s
  let s := { s with fsValues := overlay (channelCount s.variant) (frameChannels f) s.fsValues }
  hopValid c s

/-- DATA_FS_DIS(f) (R122): "reset FailsafeSet to defaults", all four values. -/
def failsafeDisableFrame (c : Cfg) (s : State) : State :=
  let s := setFsEnabled false s
  let s := { s with fsValues := Vector.replicate 4 (c.center s.variant) }
  hopValid c s

/-- DATA_UNKNOWN (R123): "dropped without effect" but for the condition in the trace. -/
def unknownFrame (f : Frame) (s : State) : State := raise .frameUnknown (.frame f) s

/-- DATA_STICK (R121). -/
def execDataStick (f : Frame) (s : State) : Answer := .next (stickFrame Config.cfg f s)

/-- DATA_FS_EN (R122). -/
def execDataFsEn (f : Frame) (s : State) : Answer := .next (failsafeEnableFrame Config.cfg f s)

/-- DATA_FS_DIS (R122): the frame's own bytes are not read. -/
def execDataFsDis (_f : Frame) (s : State) : Answer := .next (failsafeDisableFrame Config.cfg s)

/-- DATA_UNKNOWN (R123). -/
def execDataUnknown (f : Frame) (s : State) : Answer := .next (unknownFrame f s)

/-- PUBLISH (R124). -/
def execPublish (vals : ChannelSet) (s : State) : Answer := .next (writePulseBuffer vals s)

end Sys2Proof.Machine
end

