-- ==== Sys2Proof/Machine/Drain.lean ====
section
/-! DEFINITION. The two phases that drain the radio queue: the bind phase (spec/41_bind_handshake.md R103), which evaluates
every frame in order, and the receiver phase (spec/43_packet_receiver.md R119), which decodes the last frame only. -/

namespace Sys2Proof.Machine

/-- The mode values a frame's decoding depends on (R88). -/
def frameMode (s : State) : FrameMode := ⟨s.bindStage, s.bindCksum, s.variant⟩

/-- `execute op(f)` (R103, R119). -/
def runFrame (c : Cfg) (op : FrameOp) (f : Frame) (s : State) : State :=
  match op with
  | .bind0Ch3 => bindMarker0 f s
  | .bind0Ch4 => bindMarker0 f s
  | .bindBlk1 => bindBlock1 f s
  | .bindBlk2 => bindBlock2 f s
  | .bindBlk3 => bindBlock3 c f s
  | .bindReject => bindRejectFrame f s
  | .dataStick => stickFrame c f s
  | .dataFsEn => failsafeEnableFrame c f s
  | .dataFsDis => failsafeDisableFrame c s
  | .dataUnknown => unknownFrame f s

/-- Decode a frame in the state's mode and execute its operation. -/
def handleFrame (c : Cfg) (f : Frame) (s : State) : State := runFrame c (decodeFrame c (frameMode s) f) f s

/-- The `while not RxEmpty()` of R103, for at most n frames: every queued frame, oldest first; a commit ends the drain
without the CLEAR_IRQ. Called with n the queue's length, which is enough (R68). -/
def bindDrain (c : Cfg) (n : Nat) (s : State) : State :=
  match n with
  | 0 => emit c .clearIrq s
  | n + 1 =>
    match rxRead s with
    | none => emit c .clearIrq s
    | some (f, s) =>
      let s := handleFrame c f s
      if s.bindStage = .idle then s else bindDrain c n s

/-- `bind_phase()` (R103): the timeout is tested before the frames (R195). -/
def bindPhase (c : Cfg) (s : State) : State :=
  if s.bindStage = .idle then s
  else if s.bindTimer = 0 then bindTimeout c s
  else if s.radioFlag = false then s
  else
    let s := clearRadioFlag s
    bindDrain c s.rxq.length s

/-- The `while not RxEmpty(): last <- RxRead()` of R119, for at most n frames: the last frame read, and the state after. -/
def rxDrain (n : Nat) (last : Option Frame) (s : State) : Option Frame × State :=
  match n with
  | 0 => (last, s)
  | n + 1 =>
    match rxRead s with
    | none => (last, s)
    | some (f, s) => rxDrain n (some f) s

/-- `rx_phase()` (R119): "last-write-wins"; a flag with an empty queue does nothing but CLEAR_IRQ. -/
def rxPhase (c : Cfg) (s : State) : State :=
  if s.radioFlag = false then s
  else
    let s := clearRadioFlag s
    let (last, s) := rxDrain s.rxq.length none s
    let s := emit c .clearIrq s
    match last with
    | none => s
    | some f => handleFrame c f s

/-- DISP_BIND (R103). -/
def execDispBind (s : State) : Answer := .next (bindPhase Config.cfg s)

/-- DISP_RX (R119). -/
def execDispRx (s : State) : Answer := .next (rxPhase Config.cfg s)

end Sys2Proof.Machine
end

