-- ==== Sys2Proof/Machine/Failsafe.lean ====
section
/-! DEFINITION. The Failsafe Monitor (spec/44_failsafe.md R126, R127). -/

namespace Sys2Proof.Machine

/-- FAILSAFE_ENTER is raised only when the status changes to Failsafe (R126). -/
def raiseFailsafeEnter (s : State) : State :=
  if s.status = .failsafe then s else raise .failsafeEnter .nothing s

/-- `fs_phase()` (R126): level-triggered (R127), never before the first stick-data packet. -/
def fsPhase (c : Cfg) (s : State) : State :=
  if s.everReceived = false then s
  else if s.fsTimer ≠ 0 then s
  else
    let s := writePulseBuffer (fallback c s) s
    let s := raiseFailsafeEnter s
    { s with status := .failsafe }

/-- DISP_FS (R126). -/
def execDispFs (s : State) : Answer := .next (fsPhase Config.cfg s)

end Sys2Proof.Machine
end

