-- ==== Sys2Proof/Machine/Indicator.lean ====
section
/-! DEFINITION. The Link Status Indicator (spec/46_link_status.md R140, R141). -/

namespace Sys2Proof.Machine

/-- `led_phase()` (R141): a status change sets the configuration of R140 at once; else a blinking status toggles at the
expiry of its own countdown, and Receiving is steady. -/
def ledPhase (c : Cfg) (s : State) : State :=
  if s.ledLast ≠ some s.status then
    { s with ledLast := some s.status, led := true, blinkTimer := if s.status = .receiving then 0 else c.blinkPeriod s.status }
  else if s.status = .receiving then s
  else if s.blinkTimer = 0 then { s with led := !s.led, blinkTimer := c.blinkPeriod s.status }
  else s

/-- DISP_LED (R141). -/
def execDispLed (s : State) : Answer := .next (ledPhase Config.cfg s)

end Sys2Proof.Machine
end

