-- ==== Sys2Proof/Machine/Tick.lean ====
section
/-! DEFINITION. The Tick Scheduler (spec/47_tick_scheduler.md R144, R145) and the button-check phase (spec/40_dispatch.md
R95). -/

namespace Sys2Proof.Machine

/-- The countdown part (R144): the three are decremented whatever the status and the stage. -/
def tickCountdowns (s : State) : State :=
  { s with fsTimer := satdec s.fsTimer, bindTimer := satdec s.bindTimer, blinkTimer := satdec s.blinkTimer }

/-- `tick_button(b)` (R145): the one-shot request is raised on the debounced released-to-pressed edge only. -/
def tickButton (b : Bool) (s : State) : State :=
  let deb := debounced b s.btnPrev s.btnDeb
  { s with btnDeb := deb, btnPrev := b, bindRequest := pressEdge s.btnDeb deb }

/-- `tick_phase(b)` (R144, R145). -/
def tickPhase (b : Bool) (s : State) : State := tickButton b (tickCountdowns s)

/-- `button_phase(bind_request)` (R95): entry when idle, `REBIND_POLICY` during a session. -/
def buttonPhase (c : Cfg) (s : State) : State :=
  if s.bindRequest = false then s
  else
    let s := clearBindRequest s
    if s.bindStage = .idle then bindEnter c s
    else
      match c.rebindPolicy with
      | .ignore => s
      | .restart => bindRestart c s

/-- DISP_TICK (R144, R145). -/
def execDispTick (b : Bool) (s : State) : Answer := .next (tickPhase b s)

/-- DISP_BUTTON (R95). -/
def execDispButton (s : State) : Answer := .next (buttonPhase Config.cfg s)

end Sys2Proof.Machine
end

