-- ==== Sys2Proof/Machine/Events.lean ====
section
/-! DEFINITION. The main dispatch and the radio's events (spec/40_dispatch.md R93 to R97). -/

namespace Sys2Proof.Machine

/-- The three data phases, in DOC's listing order (R94, D19). -/
def dataPhases (c : Cfg) (s : State) : State := hopPhase c (fsPhase c (rxPhase c s))

/-- `dispatch(b)` (R94), one atomic step (R66): the data phases run only when no session is active, tested after the bind
phase. -/
def dispatch (c : Cfg) (b : Bool) (s : State) : State :=
  let s := tickPhase b s
  let s := buttonPhase c s
  let s := bindPhase c s
  let s := if s.bindStage = .idle then dataPhases c s else s
  ledPhase c s

/-- TICK (R93). -/
def execTick (b : Bool) (s : State) : Answer := .next (dispatch Config.cfg b s)

/-- RXF (R96). -/
def execRxf (f : Frame) (s : State) : Answer := .next (radioReceive Config.cfg f s)

/-- RIRQ (R97). -/
def execRirq (s : State) : Answer := .next (setRadioFlag s)

end Sys2Proof.Machine
end

