-- ==== Sys2Proof/Machine/Pulse.lean ====
section
/-! DEFINITION. The Pulse Generator (spec/45_pulse_generator.md R131 to R136). -/

namespace Sys2Proof.Machine

/-- The pin levels on entering state k (R133): channel k-1 low, channel k high and, entering state 0 in CH3 with an
auxiliary pin, pin 3 high for the whole train (R136). -/
def enterPins (c : Cfg) (v : Variant) (k : Fin 4) (p : Vector Bool 4) : Vector Bool 4 :=
  Vector.ofFn fun j =>
    if k = 0 ∧ v = .ch3 ∧ c.hasAuxPin = true ∧ j = 3 then true
    else if j = k then true
    else if j.val + 1 = k.val then false
    else p[j]

/-- The pin levels on entering OFF from channel k (R135): channel k low and, in CH3, pin 3 low. -/
def offPins (v : Variant) (k : Fin 4) (p : Vector Bool 4) : Vector Bool 4 :=
  Vector.ofFn fun j => if j = k then false else if v = .ch3 ∧ j = 3 then false else p[j]

/-- `pulse_enter(k)` (R133): the selector is read now, at this step (R190), and the reload is written between a stop and a
start of the timer (R188). -/
def pulseEnter (c : Cfg) (k : Fin 4) (s : State) : State :=
  let s := { s with pin := enterPins c s.variant k s.pin, pstate := .ch k }
  let s := emit c .ptimerStop s
  let s := emit c (.ptimerLoad s.pbuf[s.psel][k]) s
  emit c .ptimerStart s

/-- `pulse_off(k)` (R135). -/
def pulseOff (c : Cfg) (k : Fin 4) (s : State) : State :=
  let s := { s with pin := offPins s.variant k s.pin }
  let s := emit c .ptimerStop s
  { s with pstate := .off }

/-- TSTART (R132): a request while a train runs is dropped. -/
def trainStart (c : Cfg) (s : State) : State := if s.pstate = .off then pulseEnter c 0 s else s

/-- The pulse handler at channel k (R134): the variant is read now (R191). -/
def pulseNext (c : Cfg) (k : Fin 4) (s : State) : State :=
  if h : k.val + 1 < channelCount s.variant ∧ k.val + 1 < 4 then pulseEnter c ⟨k.val + 1, h.2⟩ s else pulseOff c k s

/-- TSTART (R132). -/
def execTstart (s : State) : Answer := .next (trainStart Config.cfg s)

/-- PEXP (R134): no event while the pulse timer is stopped (R168), and so none in OFF, where it always is (R131; log entry
12). -/
def execPexp (s : State) : Answer :=
  match s.ptimerRunning, s.pstate with
  | true, .ch k => .next (pulseNext Config.cfg k s)
  | true, .off => .refused .pulseTimerStopped
  | false, _ => .refused .pulseTimerStopped

/-- PULSE_ENTER(k) (R133). -/
def execPulseEnter (k : Fin 4) (s : State) : Answer := .next (pulseEnter Config.cfg k s)

/-- PULSE_OFF(k) (R135). -/
def execPulseOff (k : Fin 4) (s : State) : Answer := .next (pulseOff Config.cfg k s)

end Sys2Proof.Machine
end

