-- ==== Sys2Proof/Machine/Dispatch.lean ====
section
/-! DEFINITION. One arm per operation of the table, each one direct call of its meaning. -/

namespace Sys2Proof.Machine

def exec (i : Instr) (s : State) : Host.Outcome State Fault Refusal :=
  match i with
  | .reset => Sys2Proof.Machine.execReset s
  | .tick b => Sys2Proof.Machine.execTick b s
  | .rxf f => Sys2Proof.Machine.execRxf f s
  | .rirq => Sys2Proof.Machine.execRirq s
  | .hexp => Sys2Proof.Machine.execHexp s
  | .pexp => Sys2Proof.Machine.execPexp s
  | .tstart => Sys2Proof.Machine.execTstart s
  | .bind0Ch3 f => Sys2Proof.Machine.execBind0Ch3 f s
  | .bind0Ch4 f => Sys2Proof.Machine.execBind0Ch4 f s
  | .bindBlk1 f => Sys2Proof.Machine.execBindBlk1 f s
  | .bindBlk2 f => Sys2Proof.Machine.execBindBlk2 f s
  | .bindBlk3 f => Sys2Proof.Machine.execBindBlk3 f s
  | .bindReject f => Sys2Proof.Machine.execBindReject f s
  | .dataStick f => Sys2Proof.Machine.execDataStick f s
  | .dataFsEn f => Sys2Proof.Machine.execDataFsEn f s
  | .dataFsDis f => Sys2Proof.Machine.execDataFsDis f s
  | .dataUnknown f => Sys2Proof.Machine.execDataUnknown f s
  | .dispTick b => Sys2Proof.Machine.execDispTick b s
  | .dispButton => Sys2Proof.Machine.execDispButton s
  | .dispBind => Sys2Proof.Machine.execDispBind s
  | .dispRx => Sys2Proof.Machine.execDispRx s
  | .dispFs => Sys2Proof.Machine.execDispFs s
  | .dispHop => Sys2Proof.Machine.execDispHop s
  | .dispLed => Sys2Proof.Machine.execDispLed s
  | .bindEnter => Sys2Proof.Machine.execBindEnter s
  | .armBeacon => Sys2Proof.Machine.execArmBeacon s
  | .bindRestart => Sys2Proof.Machine.execBindRestart s
  | .bindCommit => Sys2Proof.Machine.execBindCommit s
  | .bindParse r => Sys2Proof.Machine.execBindParse r s
  | .rearm => Sys2Proof.Machine.execRearm s
  | .bindTimeout => Sys2Proof.Machine.execBindTimeout s
  | .hopResync => Sys2Proof.Machine.execHopResync s
  | .hopValid => Sys2Proof.Machine.execHopValid s
  | .publish vals => Sys2Proof.Machine.execPublish vals s
  | .pulseEnter k => Sys2Proof.Machine.execPulseEnter k s
  | .pulseOff k => Sys2Proof.Machine.execPulseOff k s
  | .boot => Sys2Proof.Machine.execBoot s
  | .radioInit => Sys2Proof.Machine.execRadioInit s
  | .ce b => Sys2Proof.Machine.execCe b s
  | .setAddr a => Sys2Proof.Machine.execSetAddr a s
  | .setChannel ch => Sys2Proof.Machine.execSetChannel ch s
  | .flushRx => Sys2Proof.Machine.execFlushRx s
  | .clearIrq => Sys2Proof.Machine.execClearIrq s
  | .hopTimerStart iv => Sys2Proof.Machine.execHopTimerStart iv s
  | .hopTimerStop => Sys2Proof.Machine.execHopTimerStop s
  | .nvSave r => Sys2Proof.Machine.execNvSave r s
  | .ptimerStop => Sys2Proof.Machine.execPtimerStop s
  | .ptimerLoad v => Sys2Proof.Machine.execPtimerLoad v s
  | .ptimerStart => Sys2Proof.Machine.execPtimerStart s
  | .cond code => Sys2Proof.Machine.execCond code s

end Sys2Proof.Machine
end

