-- ==== Sys2Proof/Machine/Fetch.lean ====
section
/-! DEFINITION. Where the next operation comes from: the input event sequence (spec/30_encoding.md R73, R74), read a whole
event at a time; and placing a word of the opcode table where the next step reads it (log entries 5 and 6). -/

namespace Sys2Proof.Machine

/-- The next operation and the state with its bytes consumed. An empty input has no event to handle; bytes that encode none
are refused (R74). The space goes back to `event`: whatever one word was read in, what follows is the event sequence. -/
def fetch (c : Cfg) (s : State) : Except Refusal (Instr × State) :=
  match s.input with
  | [] => .error .noEvent
  | _ :: _ =>
    match decode c s.port (frameMode s) s.input with
    | .error e => .error (.undecodable e)
    | .ok (i, rest) => .ok (i, { s with input := rest, port := .event })

/-- The state with a word placed before the input and, where the word is not an event, the space it is read in; a frame also
needs the mode it is decoded in. A word that decodes in no space stands as bytes the step refuses. -/
def placeWord (s : State) (nbits w : Nat) : State :=
  match readTableWord nbits w with
  | none => { s with input := wordBytes ((nbits + 7) / 8) w ++ s.input, port := .event }
  | some t =>
    match t.port with
    | .frame =>
      { s with
        input := t.bytes ++ s.input, port := t.port
        bindStage := t.mode.stage, bindCksum := t.mode.cksum, variant := t.mode.variant }
    | p => { s with input := t.bytes ++ s.input, port := p }

end Sys2Proof.Machine
end

