-- ==== Sys2Proof/Machine/Step.lean ====
section
/-! DEFINITION. One step: the next input event handled whole (spec/20_memory.md R66, R67). -/

namespace Sys2Proof.Machine

/-- One step of the block. -/
def step (s : State) : Host.Outcome State Fault Refusal :=
  match fetch Config.cfg s with
  | .error r => .refused r
  | .ok (i, s) => exec i s

/-- The state with a word of the opcode table placed where the next step reads it. -/
def State.withFetchWord (s : State) (nbits w : Nat) : State := placeWord s nbits w

end Sys2Proof.Machine
end

