-- ==== Sys2Proof/Safety.lean ====
section
/-! DEFINITION. What a safe run of the block is: the invariants spec/10_state.md R48 lists and the ranges its field tables
give, in the terms the statements use, and how operations are run one after another. All of them speak of the states BETWEEN
two input events (spec/20_memory.md R66). -/

namespace Sys2Proof.Machine

/-- The state between two events: the next word is an event, no bind request is left over (R43), and the radio listens
(R96, R196). -/
def BetweenEvents (s : State) : Prop := s.port = .event ∧ s.bindRequest = false ∧ s.radioCe = true

/-- "hop index always in [0,19]" (R48) and the miss counter at most the threshold (R35, R118). -/
def HopInRange (s : State) : Prop := s.hopIndex.toNat < 20 ∧ s.missCount.toNat ≤ 15

/-- The handshake and the status agree (R48): a session is active exactly while the status is Binding, the status saved for
its end is another one, the checksum is one an address can have (R32, R82), during the session the hop scheduler is suspended
(R100), and once the marker is in, the checksum is that of the record's address and byte 25 a protocol identifier (R104). -/
def SessionCoherent (s : State) : Prop :=
  (s.bindStage = .idle ↔ s.status ≠ .binding) ∧ s.bindSavedStatus ≠ .binding ∧ s.bindCksum.toNat ≤ 1275 ∧
    (s.bindStage ≠ .idle → s.hopTimerRunning = false ∧ s.hopFlag = false) ∧
    (s.bindStage = .awaitHop1 ∨ s.bindStage = .awaitHop2 ∨ s.bindStage = .awaitHop3 →
      s.bindCksum.toNat =
        s.bindRec[0].toNat + s.bindRec[1].toNat + s.bindRec[2].toNat + s.bindRec[3].toNat + s.bindRec[4].toNat ∧
      (s.bindRec[25] = 0xAA#8 ∨ s.bindRec[25] = 0xAB#8))

/-- Neither Failsafe nor Receiving, live or saved, without a stick-data packet since power-up (R48). -/
def StatusEarned (s : State) : Prop :=
  s.everReceived = false → s.status ≠ .failsafe ∧ s.status ≠ .receiving ∧
    s.bindSavedStatus ≠ .failsafe ∧ s.bindSavedStatus ≠ .receiving

/-- The pulse generator (R131): in OFF every pin is low and the timer stopped; in state k the timer runs, pin k is high, and
no other pin but pin 3, the auxiliary output, can be. -/
def PulseCoherent (s : State) : Prop :=
  match s.pstate with
  | .off => s.ptimerRunning = false ∧ ∀ j : Fin 4, s.pin[j] = false
  | .ch k => s.ptimerRunning = true ∧ s.pin[k] = true ∧ ∀ j : Fin 4, s.pin[j] = true → j = k ∨ j = 3

/-- Each countdown at most its largest reload (R44): the blink countdown that of the status the LED was set for. -/
def CountdownsBounded (c : Cfg) (s : State) : Prop :=
  s.fsTimer ≤ c.fsTimeoutTicks ∧ s.bindTimer ≤ c.bindTimeoutTicks ∧
    s.blinkTimer ≤ (match s.ledLast with | none => 0 | some st => c.blinkPeriod st)

/-- The receive queue within its depth (R46). -/
def QueueBounded (c : Cfg) (s : State) : Prop := s.rxq.length ≤ c.rxQueueDepth

/-- The live configuration is the parse of the stored record, or zeros and CH3 without one (R34, R108, R186). -/
def ConfigStored (s : State) : Prop :=
  match s.nv with
  | some r =>
    (∀ i : Fin 5, s.modelAddr[i] = r[i.val]) ∧ (∀ i : Fin 20, s.hopSeq[i] = r[5 + i.val]) ∧
      s.variant = (if r[25] = 0xAB#8 then .ch4 else .ch3)
  | none =>
    (∀ i : Fin 5, s.modelAddr[i] = 0#8) ∧ (∀ i : Fin 20, s.hopSeq[i] = 0#8) ∧ s.variant = .ch3

/-- The radio is tuned to what the block receives (R100, R109, R115): the beacon during a session, else the live address and
the channel of the hop index. -/
def RadioTuned (c : Cfg) (s : State) : Prop :=
  if s.bindStage = .idle then
    s.radioAddr = s.modelAddr ∧ ∀ h : s.hopIndex.toNat < 20, s.radioChannel = s.hopSeq[s.hopIndex.toNat]
  else s.radioAddr = c.beaconAddr ∧ s.radioChannel = c.beaconChannel

/-- A safe state between two events. -/
def Safe (c : Cfg) (s : State) : Prop :=
  BetweenEvents s ∧ HopInRange s ∧ SessionCoherent s ∧ StatusEarned s ∧ PulseCoherent s ∧ CountdownsBounded c s ∧
    QueueBounded c s ∧ ConfigStored s ∧ RadioTuned c s

/-- Operations run one after another, each on the state the one before it left; the first stop ends the run. -/
def runAll : List Instr → State → Answer
  | [], s => .next s
  | i :: is, s =>
    match exec i s with
    | .next t => runAll is t
    | .fault r => .fault r
    | .refused r => .refused r

/-- The bind requests (R145) raised by DISP_TICK over a list of button samples, in order. -/
def requests : List Bool → State → List Bool
  | [], _ => []
  | b :: bs, s =>
    match exec (.dispTick b) s with
    | .next t => t.bindRequest :: requests bs t
    | .fault _ => []
    | .refused _ => []

/-- Frames that reach the queue one by one, then the radio's interrupt, then a dispatch (R92's RX, R93). -/
def receiveAndTick (fs : List Frame) (b : Bool) : List Instr := fs.map .rxf ++ [.rirq, .tick b]

/-- The frames hold the four bind packets of a transmitter of variant v with address a and hop table h, in order, the last of
them at their end, each after any frames that the stage waiting for it rejects (R76, R77, R82, R84, R112). -/
def BindPackets (v : Variant) (a : Address) (h : HopTable) (fs : List Frame) : Prop :=
  ∃ (k : U16) (mk b₁ b₂ b₃ : Frame) (j₀ j₁ j₂ j₃ : List Frame),
    fs = j₀ ++ mk :: (j₁ ++ b₁ :: (j₂ ++ b₂ :: (j₃ ++ [b₃]))) ∧
    isMarker v mk = true ∧ (∀ i : Fin 5, mk[3 + i.val] = a[i]) ∧
    k.toNat = a[0].toNat + a[1].toNat + a[2].toNat + a[3].toNat + a[4].toNat ∧
    isHopBlock k 0#8 b₁ = true ∧ (∀ i : Fin 7, b₁[3 + i.val] = h[i.val]) ∧
    isHopBlock k 1#8 b₂ = true ∧ (∀ i : Fin 7, b₂[3 + i.val] = h[7 + i.val]) ∧
    isHopBlock k 2#8 b₃ = true ∧ (∀ i : Fin 6, b₃[3 + i.val] = h[14 + i.val]) ∧
    (∀ f ∈ j₀, isMarker .ch3 f = false ∧ isMarker .ch4 f = false) ∧ (∀ f ∈ j₁, isHopBlock k 0#8 f = false) ∧
    (∀ f ∈ j₂, isHopBlock k 1#8 f = false) ∧ (∀ f ∈ j₃, isHopBlock k 2#8 f = false)

/-- Bound to a transmitter (R107, R109, R112): outside a session, the stored record is its address, its hop table and its
identifier, the live configuration is exactly them, and the radio waits on its address and first channel, the queue empty. -/
def BoundTo (v : Variant) (a : Address) (h : HopTable) (t : State) : Prop :=
  (∃ r, t.nv = some r ∧ (∀ i : Fin 5, r[i.val] = a[i]) ∧ (∀ i : Fin 20, r[5 + i.val] = h[i]) ∧ r[25] = (bindPair v).1) ∧
    t.modelAddr = a ∧ t.hopSeq = h ∧ t.variant = v ∧ t.bindStage = .idle ∧
    t.radioAddr = a ∧ t.radioChannel = h[0] ∧ t.rxq = []

/-- What the trace has gained from one state to a later one: its entries past the first state's. -/
def gained (s t : State) : List TraceEntry := t.trace.drop s.trace.length

end Sys2Proof.Machine
end

