-- ==== Sys2Proof/Certificates/Slice0/Obligations.lean ====
section
/-! DEFINITION. The statements for the provers. `Config.cfg` is the configuration nothing is known of, so a statement about
it holds for every value of the OPEN rows of spec/00_scope.md R10. Where a statement's result is `.next { s with … }`, every
field not listed is unchanged: that is its frame. -/

open Sys2Proof Sys2Proof.Machine

/-! ### Decoding, encoding and the step -/

/-- R73, R87, R94, R150, R148: decoding the encoding of a well-formed operation, in its own space, gives it back, whatever
bytes follow. That the decoder has five spaces is the model's choice (log entry 6). -/
def Obligations.DecodeInvertsEncode : Prop :=
  ∀ (m : FrameMode) (i : Instr) (p : Port) (bs rest : List Byte),
    WellFormed Config.cfg m i = true → encode i = some (p, bs) → decode Config.cfg p m (bs ++ rest) = .ok (i, rest)

/-- The other direction: what decodes is the encoding of what it decodes to, so no word has two meanings in one space and no
bit of it is ignored; and it is well-formed (a condition entry may hold a code that is never raised, R165). The spaces
are the model's choice (log entry 6). -/
def Obligations.EncodeInvertsDecode : Prop :=
  ∀ (m : FrameMode) (p : Port) (bs rest : List Byte) (i : Instr), decode Config.cfg p m bs = .ok (i, rest) →
    (∃ p' bs', encode i = some (p', bs') ∧ bs = bs' ++ rest) ∧ (p ≠ .condition → WellFormed Config.cfg m i = true)

/-- A few words of the opcode table, read as the table numbers them. Which space a word is tried in first, and the mode a bare
frame is read in, are the model's choice (log entries 6 and 25). -/
def Obligations.TableWordsDecode : Prop :=
  decodeTableWord 8 0x00 = some .reset ∧ decodeTableWord 8 0x10 = some (.tick false) ∧
  decodeTableWord 8 0x11 = some (.tick true) ∧ decodeTableWord 8 0x60 = some .tstart ∧
  decodeTableWord 8 0x20 = some (.rxf (Vector.replicate 10 0#8)) ∧
  decodeTableWord 8 0x07 = some .dispLed ∧ decodeTableWord 8 0x14 = some .flushRx ∧
  decodeTableWord 24 0x05DC41 = some (.ptimerLoad 0x05DC#16) ∧ decodeTableWord 8 0xF4 = some (.cond 4#4) ∧
  decodeTableWord 80 0x050403020155AAFF = some (.bind0Ch3 #v[0xFF, 0xAA, 0x55, 1, 2, 3, 4, 5, 0, 0]) ∧
  decodeTableWord 8 0x70 = none

/-- R86: a frame is decoded into exactly one frame operation, the one whose row of R87's table it matches in its mode. -/
def Obligations.FrameDecodesToItsOneRow : Prop :=
  ∀ (m : FrameMode) (f : Frame) (op : FrameOp),
    decodeFrame Config.cfg m f = op ↔ WellFormed Config.cfg m (frameInstr op f) = true

/-- R90: with a checksum a session can hold (R82), a marker in a hop stage is rejected, and a hop block in AWAIT_ADDR is. -/
def Obligations.MarkerAndHopBlockNeverConfused : Prop :=
  ∀ (m : FrameMode) (f : Frame), m.cksum.toNat ≤ 1275 →
    (m.stage = .awaitHop1 ∨ m.stage = .awaitHop2 ∨ m.stage = .awaitHop3 →
      isMarker .ch3 f = true ∨ isMarker .ch4 f = true → decodeFrame Config.cfg m f = .bindReject) ∧
    (∀ seq, m.stage = .awaitAddr → isHopBlock m.cksum seq f = true → decodeFrame Config.cfg m f = .bindReject)

/-- R74: an event byte with a reserved code, or with operand bits that are not the table's, gives no step. -/
def Obligations.IllFormedEventsHaveNoStep : Prop :=
  ∀ (s : State) (b : Byte) (rest : List Byte), s.port = .event → s.input = b :: rest →
    (7 ≤ (b.extractLsb' 4 4).toNat ∨
      ((b.extractLsb' 0 4).toNat ≠ 0 ∧ ¬((b.extractLsb' 4 4).toNat = 1 ∧ (b.extractLsb' 0 4).toNat = 1))) →
    ∃ e, step s = .refused (.undecodable e)

/-- A step runs the operation that the input decodes to, on the state with its bytes consumed. The input stream as a field of
State is the model's choice (log entry 5). -/
def Obligations.StepRunsDecodedOperation : Prop :=
  ∀ (s : State) (i : Instr) (rest : List Byte),
    decode Config.cfg s.port (frameMode s) s.input = .ok (i, rest) →
      step s = exec i { s with input := rest, port := .event }

/-- R148: the trace is a sequence that only grows; no step takes an entry away. That RESET keeps it is the model's choice
(log entry 24). -/
def Obligations.TraceOnlyGrows : Prop := ∀ s t : State, step s = .next t → ∃ es, t.trace = s.trace ++ es

/-! ### Output commands and conditions -/

/-- R151 to R156: each radio command writes the one piece of the radio mirror it names (CLEAR_IRQ none) and its trace entry. -/
def Obligations.RadioCommandsWriteTheirMirror : Prop :=
  ∀ (s : State) (b : Bool) (a : Address) (ch : Byte),
    exec .radioInit s =
      .next { s with
        radioCfg :=
          { addrWidth := 5, payload := 10, crc := Config.cfg.radioCrcMode, dataRate := Config.cfg.radioDataRate
            autoAck := false, irqSource := .rxDataReady }
        trace := s.trace ++ [.cmd .radioInit] } ∧
    exec (.ce b) s = .next { s with radioCe := b, trace := s.trace ++ [.cmd (.ce b)] } ∧
    exec (.setAddr a) s = .next { s with radioAddr := a, trace := s.trace ++ [.cmd (.setAddr a)] } ∧
    exec (.setChannel ch) s = .next { s with radioChannel := ch, trace := s.trace ++ [.cmd (.setChannel ch)] } ∧
    exec .flushRx s = .next { s with rxq := [], trace := s.trace ++ [.cmd .flushRx] } ∧
    exec .clearIrq s = .next { s with trace := s.trace ++ [.cmd .clearIrq] }

/-- R157 to R161: the timer commands; HOP_TIMER_STOP keeps the pending hop flag and the interval, and no HEXP is admitted
after it. -/
def Obligations.TimerCommandsStartAndStop : Prop :=
  ∀ (s : State) (i : HopInterval) (v : U16),
    exec (.hopTimerStart i) s =
      .next { s with hopTimerRunning := true, hopTimerInterval := i, trace := s.trace ++ [.cmd (.hopTimerStart i)] } ∧
    exec .hopTimerStop s = .next { s with hopTimerRunning := false, trace := s.trace ++ [.cmd .hopTimerStop] } ∧
    (∀ t, exec .hopTimerStop s = .next t → exec .hexp t = .refused .hopTimerStopped) ∧
    exec .ptimerStop s = .next { s with ptimerRunning := false, trace := s.trace ++ [.cmd .ptimerStop] } ∧
    exec (.ptimerLoad v) s = .next { s with ptimerReload := v, trace := s.trace ++ [.cmd (.ptimerLoad v)] } ∧
    exec .ptimerStart s = .next { s with ptimerRunning := true, trace := s.trace ++ [.cmd .ptimerStart] }

/-- R59: NV_SAVE replaces all 26 bytes at once, a reset right after it finds exactly them, and reading them (as the boot
does) changes nothing of them. -/
def Obligations.NvSaveIsAtomicAndSurvivesReset : Prop :=
  ∀ (s : State) (r : BindRecord),
    exec (.nvSave r) s = .next { s with nv := some r, trace := s.trace ++ [.cmd (.nvSave r)] } ∧
    (∃ t u, exec (.nvSave r) s = .next t ∧ exec .reset t = .next u ∧ u.nv = some r) ∧
    ∃ w, exec .boot s = .next w ∧ w.nv = s.nv

/-- R148, R165: a condition entry is appended for codes 1..6, and a code that is never raised has no step. The missing info
is the model's choice (log entry 16). -/
def Obligations.ConditionEntryOnlyForRaisedCodes : Prop :=
  ∀ (s : State) (code : BitVec 4),
    (∀ cc : CondCode, cc.code = code → exec (.cond code) s = .next { s with trace := s.trace ++ [.cond cc .nothing] }) ∧
    (code = 0#4 ∨ 7 ≤ code.toNat → exec (.cond code) s = .refused (.reservedCondition code))

/-! ### Tick scheduler and button -/

/-- R144, R145: the three countdowns go down saturating at zero; the debounced state follows two equal samples; the request is
the released-to-pressed edge of the debounced state. -/
def Obligations.TickPhaseCountsAndDebounces : Prop :=
  ∀ (s : State) (b : Bool),
    exec (.dispTick b) s =
      .next { s with
        fsTimer := s.fsTimer - 1, bindTimer := s.bindTimer - 1, blinkTimer := s.blinkTimer - 1
        btnDeb := if b = s.btnPrev then b else s.btnDeb
        btnPrev := b
        bindRequest := !s.btnDeb && (if b = s.btnPrev then b else s.btnDeb) }

/-- R147: each countdown reaches zero exactly R ticks after a reload to R and not before; a button held from a released,
debounced state raises exactly one request, at the second pressed sample; no two ticks in a row raise one. -/
def Obligations.CountdownsExpireAndPressRequestsOnce : Prop :=
  (∀ (bs : List Bool) (s : State), ∃ t, runAll (bs.map .dispTick) s = .next t ∧
    t.fsTimer = s.fsTimer - bs.length ∧ t.bindTimer = s.bindTimer - bs.length ∧
    t.blinkTimer = s.blinkTimer - bs.length) ∧
  (∀ (n : Nat) (s : State), s.btnPrev = false → s.btnDeb = false →
    requests (List.replicate (n + 2) true) s = false :: true :: List.replicate n false) ∧
  (∀ (s : State) (b₁ b₂ : Bool), requests [b₁, b₂] s ≠ [true, true])

/-- R95: no request, nothing; a request when idle enters a session; a request during one is dropped (`REBIND_POLICY` =
IGNORE, D12, log entry 2). It completes in every state, the request consumed and the live configuration and the outputs untouched. -/
def Obligations.ButtonPhaseEntersOrDrops : Prop :=
  ∀ s : State,
    (s.bindRequest = false → exec .dispButton s = .next s) ∧
    (s.bindRequest = true → s.bindStage = .idle →
      exec .dispButton s = exec .bindEnter { s with bindRequest := false }) ∧
    (s.bindRequest = true → s.bindStage ≠ .idle → exec .dispButton s = .next { s with bindRequest := false }) ∧
    ∃ t, exec .dispButton s = .next t ∧ t.bindRequest = false ∧ (s.bindStage ≠ .idle → t.bindStage = s.bindStage) ∧
      t.modelAddr = s.modelAddr ∧ t.hopSeq = s.hopSeq ∧ t.variant = s.variant ∧ t.nv = s.nv ∧
      t.pbuf = s.pbuf ∧ t.psel = s.psel ∧ t.pstate = s.pstate ∧ t.pin = s.pin

/-! ### Bind handshake -/

/-- R100 with R101: entry saves the status, sets Binding, starts the timeout, suspends the hop scheduler and arms the beacon. -/
def Obligations.BindEnterStartsSession : Prop :=
  ∀ s : State, exec .bindEnter s =
    .next { s with
      bindSavedStatus := s.status, status := .binding, bindStage := .awaitAddr, bindTimer := Config.cfg.bindTimeoutTicks
      hopTimerRunning := false, hopFlag := false
      radioAddr := Config.cfg.beaconAddr, radioChannel := Config.cfg.beaconChannel, rxq := [], radioFlag := false
      radioCe := true
      trace := s.trace ++
        [.cmd .hopTimerStop, .cmd (.ce false), .cmd (.setAddr Config.cfg.beaconAddr),
         .cmd (.setChannel Config.cfg.beaconChannel), .cmd .flushRx, .cmd .clearIrq, .cmd (.ce true)] }

/-- R101 and R102: arming the beacon, alone and from a restart, which keeps the saved status, the status, the record and the
checksum. A run comes to a restart only under `REBIND_POLICY` = RESTART (D12, log entry 2). -/
def Obligations.BeaconArmedByRestart : Prop :=
  ∀ s : State,
    exec .armBeacon s =
      .next { s with
        radioAddr := Config.cfg.beaconAddr, radioChannel := Config.cfg.beaconChannel, rxq := [], radioFlag := false
        radioCe := true
        trace := s.trace ++
          [.cmd (.ce false), .cmd (.setAddr Config.cfg.beaconAddr), .cmd (.setChannel Config.cfg.beaconChannel),
           .cmd .flushRx, .cmd .clearIrq, .cmd (.ce true)] } ∧
    exec .bindRestart s =
      .next { s with
        bindStage := .awaitAddr, bindTimer := Config.cfg.bindTimeoutTicks
        radioAddr := Config.cfg.beaconAddr, radioChannel := Config.cfg.beaconChannel, rxq := [], radioFlag := false
        radioCe := true
        trace := s.trace ++
          [.cmd (.ce false), .cmd (.setAddr Config.cfg.beaconAddr), .cmd (.setChannel Config.cfg.beaconChannel),
           .cmd .flushRx, .cmd .clearIrq, .cmd (.ce true)] }

/-- R104, R82: a marker frame writes the five address bytes and the identifier P into the record, and the sum of the address
bytes, at most 1275, into the checksum; the live configuration is untouched. -/
def Obligations.MarkerCapturesAddress : Prop :=
  ∀ (s : State) (f : Frame) (i : Instr), i = .bind0Ch3 f ∨ i = .bind0Ch4 f →
    ∃ r k, exec i s = .next { s with bindRec := r, bindCksum := k, bindStage := .awaitHop1 } ∧
      (∀ j : Fin 26, r[j] = if h : j.val < 5 then f[3 + j.val] else if j.val = 25 then f[1] else s.bindRec[j]) ∧
      k.toNat = (f[3].toNat + f[4].toNat + f[5].toNat + f[6].toNat + f[7].toNat) % 65536 ∧ k.toNat ≤ 1275

/-- R84, R105: hop block s copies its 7, 7 or 6 bytes to the hop entries from 0, 7 or 14 and moves to the next stage; the
last one commits. -/
def Obligations.HopBlocksFillRecord : Prop :=
  ∀ (s : State) (f : Frame),
    (∃ r, exec (.bindBlk1 f) s = .next { s with bindRec := r, bindStage := .awaitHop2 } ∧
      ∀ j : Fin 26, r[j] = if h : 5 ≤ j.val ∧ j.val < 12 then f[j.val - 2] else s.bindRec[j]) ∧
    (∃ r, exec (.bindBlk2 f) s = .next { s with bindRec := r, bindStage := .awaitHop3 } ∧
      ∀ j : Fin 26, r[j] = if h : 12 ≤ j.val ∧ j.val < 19 then f[j.val - 9] else s.bindRec[j]) ∧
    (∃ r, exec (.bindBlk3 f) s = exec .bindCommit { s with bindRec := r } ∧
      (∀ j : Fin 26, r[j] = if h : 19 ≤ j.val ∧ j.val < 25 then f[j.val - 16] else s.bindRec[j]) ∧
      ∃ t, exec (.bindBlk3 f) s = .next t ∧ t.nv = some r ∧ t.bindRec = r ∧ t.bindStage = .idle ∧ t.status = .idle)

/-- R108: the live configuration parsed from a record. -/
def Obligations.BindParseReadsRecord : Prop :=
  ∀ (s : State) (r : BindRecord), ∃ a h, exec (.bindParse r) s =
      .next { s with modelAddr := a, hopSeq := h, variant := if r[25] = 0xAB#8 then .ch4 else .ch3 } ∧
    (∀ i : Fin 5, a[i] = r[i.val]) ∧ (∀ i : Fin 20, h[i] = r[5 + i.val])

/-- R109: the receiver re-armed from scratch on the live address and the first hop channel. -/
def Obligations.RearmRestartsReceiver : Prop :=
  ∀ s : State, exec .rearm s =
    .next { s with
      radioAddr := s.modelAddr, radioChannel := s.hopSeq[0], rxq := [], radioFlag := false, radioCe := true
      hopIndex := 0#5, missCount := 0#5, hopTimerRunning := false, hopFlag := false
      trace := s.trace ++
        [.cmd (.ce false), .cmd (.setAddr s.modelAddr), .cmd .hopTimerStop, .cmd (.setChannel s.hopSeq[0]), .cmd .flushRx,
         .cmd .clearIrq, .cmd (.ce true)] }

/-- R107: the commit persists the record, parses it into the live configuration, sets Idle and re-arms on it; the failsafe
set, the PulseBuffer, `ever_received` and the countdowns are untouched. -/
def Obligations.BindCommitPersistsAndParses : Prop :=
  ∀ s : State, ∃ a h, exec .bindCommit s =
      .next { s with
        nv := some s.bindRec, modelAddr := a, hopSeq := h, variant := if s.bindRec[25] = 0xAB#8 then .ch4 else .ch3
        status := .idle, bindStage := .idle
        radioAddr := a, radioChannel := h[0], rxq := [], radioFlag := false, radioCe := true
        hopIndex := 0#5, missCount := 0#5, hopTimerRunning := false, hopFlag := false
        trace := s.trace ++
          [.cmd (.nvSave s.bindRec), .cmd (.ce false), .cmd (.setAddr a), .cmd .hopTimerStop, .cmd (.setChannel h[0]),
           .cmd .flushRx, .cmd .clearIrq, .cmd (.ce true)] } ∧
    (∀ i : Fin 5, a[i] = s.bindRec[i.val]) ∧ (∀ i : Fin 20, h[i] = s.bindRec[5 + i.val])

/-- R110: the timeout restores the saved status, keeps the old configuration and re-arms on it; `nv` and the partial record
are kept. -/
def Obligations.BindTimeoutKeepsConfiguration : Prop :=
  ∀ s : State, exec .bindTimeout s =
    .next { s with
      bindStage := .idle, status := s.bindSavedStatus
      radioAddr := s.modelAddr, radioChannel := s.hopSeq[0], rxq := [], radioFlag := false, radioCe := true
      hopIndex := 0#5, missCount := 0#5, hopTimerRunning := false, hopFlag := false
      trace := s.trace ++
        [.cond .bindTimeout .nothing, .cmd (.ce false), .cmd (.setAddr s.modelAddr), .cmd .hopTimerStop,
         .cmd (.setChannel s.hopSeq[0]), .cmd .flushRx, .cmd .clearIrq, .cmd (.ce true)] }

/-- R106, R123: a rejected bind frame and an unknown data frame change nothing but the trace, which records the condition. -/
def Obligations.RejectedFramesChangeNothing : Prop :=
  ∀ (s : State) (f : Frame),
    exec (.bindReject f) s =
      .next { s with trace := s.trace ++ [.cond .bindMalformed (.stageFrame s.bindStage f)] } ∧
    exec (.dataUnknown f) s = .next { s with trace := s.trace ++ [.cond .frameUnknown (.frame f)] }

/-- R103, R195: the bind phase does nothing outside a session; in one, the timeout comes before any frame; without the flag
the frames wait. Else it is the drain: an empty queue gives only CLEAR_IRQ; the oldest frame is decoded in the state's mode
and executed with the rest still queued, and the drain goes on with the rest from the state that leaves, unless that is in
IDLE: a commit ends it there, without the CLEAR_IRQ. In every state it completes, with the flag clear if it was in a
session. -/
def Obligations.BindPhaseTestsTimeoutFirst : Prop :=
  ∀ s : State,
    (s.bindStage = .idle → exec .dispBind s = .next s) ∧
    (s.bindStage ≠ .idle → s.bindTimer = 0 → exec .dispBind s = exec .bindTimeout s) ∧
    (s.bindStage ≠ .idle → s.bindTimer ≠ 0 → s.radioFlag = false → exec .dispBind s = .next s) ∧
    (s.bindStage ≠ .idle → s.bindTimer ≠ 0 → s.radioFlag = true →
      (s.rxq = [] → exec .dispBind s = .next { s with radioFlag := false, trace := s.trace ++ [.cmd .clearIrq] }) ∧
      ∀ f q, s.rxq = f :: q → ∃ u,
        exec (frameInstr (decodeFrame Config.cfg ⟨s.bindStage, s.bindCksum, s.variant⟩ f) f)
          { s with radioFlag := false, rxq := q } = .next u ∧
        (u.bindStage = .idle → exec .dispBind s = .next u) ∧
        (u.bindStage ≠ .idle → u.rxq = q ∧ exec .dispBind s = exec .dispBind { u with radioFlag := true })) ∧
    ∃ t, exec .dispBind s = .next t ∧ (s.bindStage ≠ .idle → t.radioFlag = false) ∧
      t.fsTimer = s.fsTimer ∧ t.bindTimer = s.bindTimer ∧ t.blinkTimer = s.blinkTimer ∧ t.everReceived = s.everReceived ∧
      t.fsEnabled = s.fsEnabled ∧ t.fsValues = s.fsValues ∧ t.pbuf = s.pbuf ∧ t.psel = s.psel ∧ t.pstate = s.pstate ∧
      t.pin = s.pin ∧ t.led = s.led

/-- R112 (2), R106: a queue of frames that the current stage rejects leaves the session as it was, one BIND_MALFORMED each in
queue order, the queue emptied. -/
def Obligations.RejectedFramesNeverAdvanceStage : Prop :=
  ∀ s : State, s.bindStage ≠ .idle → s.bindTimer ≠ 0 → s.radioFlag = true →
    (∀ f ∈ s.rxq, stageAccepts ⟨s.bindStage, s.bindCksum, s.variant⟩ f = false) →
    exec .dispBind s =
      .next { s with
        rxq := [], radioFlag := false
        trace := s.trace ++ s.rxq.map (fun f => .cond .bindMalformed (.stageFrame s.bindStage f)) ++ [.cmd .clearIrq] }

/-- R112 (1) and (2): the four bind packets of a transmitter with address a and hop table h, in order and with any rejected
frames before and between them, commit: the persisted record is a, h and the identifier, and the live configuration is
exactly them. First in one bind phase, all in one queue with any frames after them; then spread in any way over the queues
of as many dispatches as the session has time for, each queue within the radio's depth, whatever the button does (a press
during a session is dropped: `REBIND_POLICY` = IGNORE, D12, log entry 2). The status is Idle, or at once overridden by an
expired failsafe timer in the dispatch that commits. -/
def Obligations.BindSessionPersistsTransmittedRecord : Prop :=
  (∀ (s : State) (v : Variant) (a : Address) (h : HopTable) (fs j : List Frame),
    s.bindStage = .awaitAddr → s.bindTimer ≠ 0 → s.radioFlag = true → BindPackets v a h fs → s.rxq = fs ++ j →
    ∃ t, exec .dispBind s = .next t ∧ BoundTo v a h t ∧ t.status = .idle) ∧
  (∀ (s : State) (v : Variant) (a : Address) (h : HopTable) (qs : List (List Frame × Bool)) (q j : List Frame) (b : Bool),
    s.bindStage = .awaitAddr → s.rxq = [] → s.radioCe = true → qs.length + 1 < s.bindTimer →
    BindPackets v a h ((qs.map (·.1)).flatten ++ q) → q ≠ [] →
    (∀ p ∈ qs, p.1.length ≤ Config.cfg.rxQueueDepth) → (q ++ j).length ≤ Config.cfg.rxQueueDepth →
    ∃ t, runAll ((qs.map (fun p => receiveAndTick p.1 p.2)).flatten ++ receiveAndTick (q ++ j) b) s = .next t ∧
      BoundTo v a h t ∧
      t.status = if s.everReceived = true ∧ s.fsTimer ≤ qs.length + 1 then .failsafe else .idle)

/-- R110, R111, R112 (3): a session with n dispatches left and no radio interrupt keeps its stage and status through the
first n - 1 dispatches, whatever the button does (a press during a session is dropped: `REBIND_POLICY` = IGNORE, D12, log
entry 2), and ends at the n-th: the saved status is restored, or at once overridden by an expired failsafe timer, and the
stored record and the live configuration are untouched. -/
def Obligations.SilentSessionTimesOut : Prop :=
  ∀ (s : State) (bs : List Bool), s.bindStage ≠ .idle → s.radioFlag = false → bs ≠ [] → s.bindTimer = bs.length →
    (∀ n, n < bs.length → ∃ t, runAll ((bs.take n).map .tick) s = .next t ∧ t.bindStage = s.bindStage ∧
      t.status = s.status) ∧
    ∃ t, runAll (bs.map .tick) s = .next t ∧ t.bindStage = .idle ∧
      t.status = (if s.everReceived = true ∧ s.fsTimer ≤ bs.length then .failsafe else s.bindSavedStatus) ∧
      t.nv = s.nv ∧ t.modelAddr = s.modelAddr ∧ t.hopSeq = s.hopSeq ∧ t.variant = s.variant

/-! ### Hop scheduler -/

/-- R114, R168: HEXP sets the flag and the steady interval, the timer keeps running and a second expiry adds nothing; with the
timer stopped there is no step. -/
def Obligations.HopExpirySetsFlagOnce : Prop :=
  ∀ s : State,
    (s.hopTimerRunning = true →
      exec .hexp s = .next { s with hopFlag := true, hopTimerInterval := .steady } ∧
      runAll [.hexp, .hexp] s = exec .hexp s) ∧
    (s.hopTimerRunning = false → exec .hexp s = .refused .hopTimerStopped)

/-- R115: without the flag nothing; else one miss is counted and, up to the threshold, the index advances modulo 20 and the
radio is tuned to the new channel; past it (the 16th miss, strictly) the resync of R116. -/
def Obligations.HopPhaseAdvancesOrResyncs : Prop :=
  ∀ s : State, s.missCount.toNat ≤ 15 →
    (s.hopFlag = false → exec .dispHop s = .next s) ∧
    (s.hopFlag = true → s.missCount.toNat < 15 → ∃ t i, exec .dispHop s = .next t ∧
      ∃ h : (s.hopIndex.toNat + 1) % 20 < 20,
        t = { s with
          hopFlag := false, missCount := s.missCount + 1#5, hopIndex := i
          radioChannel := s.hopSeq[(s.hopIndex.toNat + 1) % 20]
          trace := s.trace ++ [.cmd (.setChannel s.hopSeq[(s.hopIndex.toNat + 1) % 20])] } ∧
        i.toNat = (s.hopIndex.toNat + 1) % 20) ∧
    (s.hopFlag = true → s.missCount.toNat = 15 →
      exec .dispHop s =
        .next { s with
          hopFlag := false, hopTimerRunning := false, hopIndex := 0#5, missCount := 0#5, rxq := []
          radioChannel := s.hopSeq[0]
          trace := s.trace ++
            [.cmd .hopTimerStop, .cmd .flushRx, .cmd (.setChannel s.hopSeq[0]), .cond .hopResync .nothing] })

/-- R116, R117: the full resynchronisation leaves the timer stopped and keeps `radio_flag`; a valid frame clears the miss
counter and restarts the timer with the first interval, the index and the pending request kept (`RESTART_CLEARS_HOP_FLAG` =
false, D20, log entry 2). -/
def Obligations.ResyncStopsAndValidFrameRestartsTimer : Prop :=
  ∀ s : State,
    exec .hopResync s =
      .next { s with
        hopTimerRunning := false, hopIndex := 0#5, rxq := [], radioChannel := s.hopSeq[0], missCount := 0#5
        trace := s.trace ++
          [.cmd .hopTimerStop, .cmd .flushRx, .cmd (.setChannel s.hopSeq[0]), .cond .hopResync .nothing] } ∧
    exec .hopValid s =
      .next { s with
        missCount := 0#5, hopTimerRunning := true, hopTimerInterval := .first
        trace := s.trace ++ [.cmd .hopTimerStop, .cmd (.hopTimerStart .first)] }

/-- R118 (1): k whole dispatches in a row that each find the flag set and no frame, from no misses at index i, give for
k ≤ 15 k misses and index (i + k) mod 20, tuned to its channel; the 16th resynchronises and stops the timer. -/
def Obligations.SixteenthConsecutiveMissResyncs : Prop :=
  ∀ (s : State) (k : Nat), s.bindStage = .idle → s.hopTimerRunning = true → s.radioFlag = false →
    s.missCount = 0#5 → s.hopIndex.toNat < 20 →
    (k ≤ 15 → ∃ t, runAll (List.replicate k [Instr.hexp, .tick false]).flatten s = .next t ∧
      t.missCount.toNat = k ∧ t.hopIndex.toNat = (s.hopIndex.toNat + k) % 20 ∧ t.hopTimerRunning = true ∧
      (0 < k → ∃ h : (s.hopIndex.toNat + k) % 20 < 20, t.radioChannel = s.hopSeq[(s.hopIndex.toNat + k) % 20])) ∧
    (k = 16 → ∃ t, runAll (List.replicate k [Instr.hexp, .tick false]).flatten s = .next t ∧
      t.missCount = 0#5 ∧ t.hopIndex = 0#5 ∧ t.hopTimerRunning = false ∧ t.rxq = [] ∧ t.radioChannel = s.hopSeq[0])

/-! ### Packet receiver -/

/-- R119, R193: without the flag nothing; else the queue is drained and only its last frame, decoded in the state's mode, is
executed; an empty queue gives only CLEAR_IRQ. It completes in every state, with the pulse outputs, the LED and the other
countdowns untouched. -/
def Obligations.ReceiverHandlesLastFrameOnly : Prop :=
  ∀ s : State,
    (s.radioFlag = false → exec .dispRx s = .next s) ∧
    (s.radioFlag = true → s.rxq = [] →
      exec .dispRx s = .next { s with radioFlag := false, trace := s.trace ++ [.cmd .clearIrq] }) ∧
    (∀ q f, s.radioFlag = true → s.rxq = q ++ [f] →
      exec .dispRx s =
        exec (frameInstr (decodeFrame Config.cfg ⟨s.bindStage, s.bindCksum, s.variant⟩ f) f)
          { s with radioFlag := false, rxq := [], trace := s.trace ++ [.cmd .clearIrq] }) ∧
    ∃ t, exec .dispRx s = .next t ∧ t.radioFlag = false ∧
      t.pstate = s.pstate ∧ t.pin = s.pin ∧ t.ptimerRunning = s.ptimerRunning ∧ t.ptimerReload = s.ptimerReload ∧
      t.bindTimer = s.bindTimer ∧ t.blinkTimer = s.blinkTimer ∧ t.led = s.led ∧ t.ledLast = s.ledLast ∧
      (s.bindStage = .idle → t.bindStage = .idle ∧ t.nv = s.nv ∧ t.modelAddr = s.modelAddr ∧ t.hopSeq = s.hopSeq ∧
        t.variant = s.variant)

/-- R124, R189, R62: a publish writes entries k < N(variant) of the inactive slot and then makes it the active one; the slot
that was active is not touched. -/
def Obligations.PublishWritesInactiveSlot : Prop :=
  ∀ (s : State) (vals : ChannelSet), ∃ pb, exec (.publish vals) s = .next { s with pbuf := pb, psel := 1 - s.psel } ∧
    pb[s.psel] = s.pbuf[s.psel] ∧
    ∀ k : Fin 4, pb[1 - s.psel][k] = if k.val < channelCount s.variant then vals[k] else s.pbuf[1 - s.psel][k]

/-- R121 with R83, R55: a stick frame publishes its channel values, channel 3 from bytes 9 and 6, sets Receiving, reloads the
failsafe timer, sets `ever_received` and restarts the hop timer. That a pending hop request is kept is the decided value of
`RESTART_CLEARS_HOP_FLAG` (false, D20, log entry 2). -/
def Obligations.StickFramePublishesChannels : Prop :=
  ∀ (s : State) (f : Frame), ∃ pb, exec (.dataStick f) s =
      .next { s with
        pbuf := pb, psel := 1 - s.psel, status := .receiving, fsTimer := Config.cfg.fsTimeoutTicks, everReceived := true
        missCount := 0#5, hopTimerRunning := true, hopTimerInterval := .first
        trace := s.trace ++ [.cmd .hopTimerStop, .cmd (.hopTimerStart .first)] } ∧
    pb[s.psel] = s.pbuf[s.psel] ∧
    pb[1 - s.psel][0] = f[1] ++ f[0] ∧ pb[1 - s.psel][1] = f[3] ++ f[2] ∧ pb[1 - s.psel][2] = f[5] ++ f[4] ∧
    pb[1 - s.psel][3] = (if s.variant = .ch4 then f[9] ++ f[6] else s.pbuf[1 - s.psel][3])

/-- R125: the wire layout of a channel set, decoded by a stick frame, gives back the values exactly: four of them in CH4, the
first three in CH3. -/
def Obligations.StickFrameRoundTrip : Prop :=
  ∀ (s : State) (v₀ v₁ v₂ v₃ : U16) (d m : Byte),
    ∃ t, exec (.dataStick #v[v₀.extractLsb' 0 8, v₀.extractLsb' 8 8, v₁.extractLsb' 0 8, v₁.extractLsb' 8 8,
        v₂.extractLsb' 0 8, v₂.extractLsb' 8 8, v₃.extractLsb' 0 8, d, m, v₃.extractLsb' 8 8]) s = .next t ∧
      t.pbuf[t.psel][0] = v₀ ∧ t.pbuf[t.psel][1] = v₁ ∧ t.pbuf[t.psel][2] = v₂ ∧
      (s.variant = .ch4 → t.pbuf[t.psel][3] = v₃)

/-- R122: the failsafe configuration frames; neither publishes, changes the status, reloads `fs_timer` or sets
`ever_received`. That both keep a pending hop request is the decided value of `RESTART_CLEARS_HOP_FLAG` (false, D20, log
entry 2). -/
def Obligations.FailsafeFramesConfigure : Prop :=
  ∀ (s : State) (f : Frame),
    (∃ vs, exec (.dataFsEn f) s =
        .next { s with
          fsEnabled := true, fsValues := vs, missCount := 0#5, hopTimerRunning := true, hopTimerInterval := .first
          trace := s.trace ++ [.cmd .hopTimerStop, .cmd (.hopTimerStart .first)] } ∧
      vs[0] = f[1] ++ f[0] ∧ vs[1] = f[3] ++ f[2] ∧ vs[2] = f[5] ++ f[4] ∧
      vs[3] = (if s.variant = .ch4 then f[9] ++ f[6] else s.fsValues[3])) ∧
    exec (.dataFsDis f) s =
      .next { s with
        fsEnabled := false, fsValues := Vector.replicate 4 (Config.cfg.center s.variant)
        missCount := 0#5, hopTimerRunning := true, hopTimerInterval := .first
        trace := s.trace ++ [.cmd .hopTimerStop, .cmd (.hopTimerStart .first)] }

/-- R37: a stick frame sets `ever_received`. It becomes true only in a dispatch whose receiver finds, as the last frame queued
and with the radio flag set, a stick frame of the current variant; and it becomes false only at RESET, so a bind keeps it. -/
def Obligations.EverReceivedSetOnlyByStickData : Prop :=
  (∀ (s : State) (f : Frame), ∃ t, exec (.dataStick f) s = .next t ∧ t.everReceived = true) ∧
  ∀ (s t : State) (i : Instr) (rest : List Byte), s.port = .event → decodeEvent s.input = .ok (i, rest) →
    step s = .next t →
    (s.everReceived = false → t.everReceived = true →
      s.bindStage = .idle ∧ s.radioFlag = true ∧
        ∃ f b, s.rxq.getLast? = some f ∧ f[7] = Config.cfg.stickId s.variant ∧ i = .tick b) ∧
    (s.everReceived = true → t.everReceived = false → i = .reset)

/-! ### Failsafe monitor -/

/-- R126, R127: never before stick data and not while the timer runs; else, in every dispatch, the fallback is published into
the inactive slot, the status becomes Failsafe and FAILSAFE_ENTER is raised on the change only. -/
def Obligations.FailsafePhasePublishesFallback : Prop :=
  ∀ s : State,
    (s.everReceived = false ∨ s.fsTimer ≠ 0 → exec .dispFs s = .next s) ∧
    (s.everReceived = true → s.fsTimer = 0 → ∃ pb, exec .dispFs s =
        .next { s with
          pbuf := pb, psel := 1 - s.psel, status := .failsafe
          trace := s.trace ++ (if s.status = .failsafe then [] else [.cond .failsafeEnter .nothing]) } ∧
      pb[s.psel] = s.pbuf[s.psel] ∧
      ∀ k : Fin 4, pb[1 - s.psel][k] =
        if k.val < channelCount s.variant then
          (if s.fsEnabled then s.fsValues[k] else Config.cfg.center s.variant)
        else s.pbuf[1 - s.psel][k])

/-- R129: with the failsafe timer at F ≥ 1, no frame and no press, the first F - 1 dispatches leave the status and the
PulseBuffer as they were, and the F-th applies the fallback. -/
def Obligations.FailsafeAppliedAtTimeout : Prop :=
  ∀ (s : State) (n : Nat), s.bindStage = .idle → s.everReceived = true → s.radioFlag = false → s.status ≠ .failsafe →
    s.fsTimer = n + 1 →
    (∀ k, k ≤ n → ∃ t, runAll (List.replicate k (.tick false)) s = .next t ∧ t.status = s.status ∧ t.pbuf = s.pbuf ∧
      t.psel = s.psel) ∧
    ∃ t, runAll (List.replicate (n + 1) (.tick false)) s = .next t ∧ t.status = .failsafe ∧ t.psel = 1 - s.psel ∧
      ∀ k : Fin 4, k.val < channelCount s.variant →
        t.pbuf[t.psel][k] = if s.fsEnabled then s.fsValues[k] else Config.cfg.center s.variant

/-! ### Pulse generator -/

/-- R133, R135: entering state k raises pin k, lowers pin k - 1, raises the auxiliary pin at the start of a CH3 train, and
reloads the stopped timer with the active slot's entry read at this step; leaving from channel k lowers pin k and, in CH3,
pin 3, and stops the timer. -/
def Obligations.PulseEnterRaisesAndOffLowersPins : Prop :=
  ∀ (s : State) (k : Fin 4),
    (∃ p, exec (.pulseEnter k) s =
        .next { s with
          pin := p, pstate := .ch k, ptimerRunning := true, ptimerReload := s.pbuf[s.psel][k]
          trace := s.trace ++ [.cmd .ptimerStop, .cmd (.ptimerLoad s.pbuf[s.psel][k]), .cmd .ptimerStart] } ∧
      p[k] = true ∧
      ∀ j : Fin 4, j ≠ k → p[j] =
        if j.val + 1 = k.val then false
        else if k = 0 ∧ j = 3 ∧ s.variant = .ch3 ∧ Config.cfg.hasAuxPin = true then true
        else s.pin[j]) ∧
    (∃ p, exec (.pulseOff k) s =
        .next { s with pin := p, pstate := .off, ptimerRunning := false, trace := s.trace ++ [.cmd .ptimerStop] } ∧
      ∀ j : Fin 4, p[j] = if j = k ∨ (s.variant = .ch3 ∧ j = 3) then false else s.pin[j])

/-- R132: a train starts from OFF by entering state 0; while one runs the request is dropped. -/
def Obligations.TrainStartsOnlyFromOff : Prop :=
  ∀ s : State,
    (s.pstate = .off → exec .tstart s = exec (.pulseEnter 0) s ∧
      ∃ t, exec .tstart s = .next t ∧ t.pstate = .ch 0 ∧ t.ptimerReload = s.pbuf[s.psel][0]) ∧
    (s.pstate ≠ .off → exec .tstart s = .next s)

/-- R134, R131, R168: an expiry at channel k enters channel k + 1 if the variant, read now, has it, else ends the train; there
is no expiry while the timer is stopped. -/
def Obligations.PulseExpiryStepsTrain : Prop :=
  ∀ s : State,
    (∀ k : Fin 4, s.ptimerRunning = true → s.pstate = .ch k →
      (∀ k' : Fin 4, k'.val = k.val + 1 → k'.val < channelCount s.variant →
        exec .pexp s = exec (.pulseEnter k') s ∧
          ∃ t, exec .pexp s = .next t ∧ t.pstate = .ch k' ∧ t.ptimerReload = s.pbuf[s.psel][k']) ∧
      (channelCount s.variant ≤ k.val + 1 →
        exec .pexp s = exec (.pulseOff k) s ∧
          ∃ t, exec .pexp s = .next t ∧ t.pstate = .off ∧ t.ptimerRunning = false)) ∧
    (s.ptimerRunning = false → exec .pexp s = .refused .pulseTimerStopped)

/-- R138: from OFF, publishing a channel set and running one train with no publish in between loads exactly the published
widths in channel order, N(variant) of them, each between a stop and a start of the timer (R188), and ends in OFF. -/
def Obligations.TrainEmitsPublishedWidths : Prop :=
  ∀ (s : State) (vals : ChannelSet), s.pstate = .off →
    ∃ t, runAll (.publish vals :: .tstart :: List.replicate (channelCount s.variant) .pexp) s = .next t ∧
      t.trace = s.trace ++
        ((List.finRange 4).filter (fun k => k.val < channelCount s.variant)).flatMap
          (fun k => [.cmd .ptimerStop, .cmd (.ptimerLoad vals[k]), .cmd .ptimerStart]) ++ [.cmd .ptimerStop] ∧
      t.pstate = .off ∧ t.ptimerRunning = false

/-- R48 (2), R66 (b): no dispatch writes the slot that is active when it starts, and it publishes at most once: if it leaves the
selector as it was, it wrote neither slot. -/
def Obligations.DispatchNeverTearsActiveSlot : Prop :=
  ∀ (s : State) (b : Bool), ∃ t, exec (.tick b) s = .next t ∧ t.pbuf[s.psel] = s.pbuf[s.psel] ∧
    (t.psel = s.psel → t.pbuf = s.pbuf) ∧
    t.pstate = s.pstate ∧ t.pin = s.pin ∧ t.ptimerRunning = s.ptimerRunning ∧ t.ptimerReload = s.ptimerReload

/-! ### Link status indicator -/

/-- R141: a status change sets the static level and its blink period; Receiving is steady; else the level toggles when the
blink countdown is zero. -/
def Obligations.LedFollowsStatus : Prop :=
  ∀ s : State,
    (s.ledLast ≠ some s.status → exec .dispLed s =
      .next { s with ledLast := some s.status, led := true, blinkTimer := Config.cfg.blinkPeriod s.status }) ∧
    (s.ledLast = some s.status → s.status = .receiving ∨ s.blinkTimer ≠ 0 → exec .dispLed s = .next s) ∧
    (s.ledLast = some s.status → s.status ≠ .receiving → s.blinkTimer = 0 → exec .dispLed s =
      .next { s with led := !s.led, blinkTimer := Config.cfg.blinkPeriod s.status }) ∧
    Config.cfg.blinkPeriod .receiving = 0 ∧
    Config.cfg.blinkPeriod .binding < Config.cfg.blinkPeriod .failsafe ∧
    Config.cfg.blinkPeriod .binding < Config.cfg.blinkPeriod .idle

/-- R142: with a blinking status held, n tick and LED phases after its configuration was set the level is on exactly when the
number of whole periods passed is even. -/
def Obligations.LedBlinksWithItsPeriod : Prop :=
  ∀ (s : State) (bs : List Bool), s.status ≠ .receiving → s.ledLast = some s.status → s.led = true →
    s.blinkTimer = Config.cfg.blinkPeriod s.status →
    ∃ t, runAll (bs.map (fun b => [Instr.dispTick b, .dispLed])).flatten s = .next t ∧
      t.led = decide (bs.length / Config.cfg.blinkPeriod s.status % 2 = 0)

/-! ### Events, dispatch, reset -/

/-- R96: a frame is lost while chip-enable is low or the queue is full, and else is queued last; `radio_flag` is unchanged. R97:
RIRQ sets the flag and nothing else. -/
def Obligations.RadioEventsQueueAndFlag : Prop :=
  ∀ (s : State) (f : Frame),
    (s.radioCe = false ∨ s.rxq.length = Config.cfg.rxQueueDepth → exec (.rxf f) s = .next s) ∧
    (s.radioCe = true → s.rxq.length ≠ Config.cfg.rxQueueDepth →
      exec (.rxf f) s = .next { s with rxq := s.rxq ++ [f] }) ∧
    exec .rirq s = .next { s with radioFlag := true }

/-- R94: one TICK is its phases run in order, each on the state the one before it left, the data phases only when no session
is active after the bind phase; every phase completes. -/
def Obligations.TickRunsPhasesInOrder : Prop :=
  ∀ (s : State) (b : Bool), ∃ s₁ s₂ s₃ s₄ s₅ s₆ s₇,
    exec (.dispTick b) s = .next s₁ ∧ exec .dispButton s₁ = .next s₂ ∧ exec .dispBind s₂ = .next s₃ ∧
    (s₃.bindStage = .idle → exec .dispRx s₃ = .next s₄ ∧ exec .dispFs s₄ = .next s₅ ∧ exec .dispHop s₅ = .next s₆) ∧
    (s₃.bindStage ≠ .idle → s₆ = s₃) ∧ exec .dispLed s₆ = .next s₇ ∧ exec (.tick b) s = .next s₇

/-- R194: a dispatch that finds both a valid frame of either kind (R120) last in the queue and the hop flag set, with any
button sample that raises no bind request, ends with one miss counted and the radio on the next hop channel. That the
pending request is kept is the decided value of `RESTART_CLEARS_HOP_FLAG` (false, D20, log entry 2). -/
def Obligations.PendingHopCountedAfterValidFrame : Prop :=
  ∀ (s : State) (q : List Frame) (f : Frame) (b : Bool), s.bindStage = .idle → s.radioFlag = true → s.hopFlag = true →
    s.rxq = q ++ [f] → f[7] = Config.cfg.stickId s.variant ∨ f[7] = Config.cfg.failsafeId s.variant →
    ¬(b = true ∧ s.btnPrev = true ∧ s.btnDeb = false) →
    ∃ t, exec (.tick b) s = .next t ∧ t.missCount = 1#5 ∧ t.hopIndex.toNat = (s.hopIndex.toNat + 1) % 20 ∧
      (∃ h : (s.hopIndex.toNat + 1) % 20 < 20, t.radioChannel = s.hopSeq[(s.hopIndex.toNat + 1) % 20]) ∧
      (f[7] = Config.cfg.stickId s.variant → t.status = .receiving) ∧
      t.hopTimerRunning = true ∧ t.hopFlag = false

/-- R34, R47, R48 (4): no event but RESET changes the stored record or the live configuration, except a dispatch that ends a
session by a commit, which saves a record and makes the live configuration its parse. -/
def Obligations.ConfigurationChangesOnlyAtCommit : Prop :=
  ∀ (s t : State) (i : Instr) (rest : List Byte), s.port = .event → decodeEvent s.input = .ok (i, rest) → i ≠ .reset →
    step s = .next t →
    (t.nv = s.nv ∧ t.modelAddr = s.modelAddr ∧ t.hopSeq = s.hopSeq ∧ t.variant = s.variant ∧
      ∀ r, .cmd (.nvSave r) ∉ gained s t) ∨
    (s.bindStage ≠ .idle ∧ t.bindStage = .idle ∧
      ∃ r, t.nv = some r ∧ .cmd (.nvSave r) ∈ gained s t ∧
        (∀ j : Fin 5, t.modelAddr[j] = r[j.val]) ∧ (∀ j : Fin 20, t.hopSeq[j] = r[5 + j.val]) ∧
        t.variant = if r[25] = 0xAB#8 then .ch4 else .ch3)

/-- R184, R185, R186: RESET from any state gives every field its reset value, with the live configuration of the stored record
(zeros, CH3 and NO_RECORD without one), the PulseBuffer and selector at the next free draw (log entry
3); `nv` survives. That the trace, the input and the port are kept is the model's choice (log entry 24). -/
def Obligations.ResetEstablishesResetState : Prop :=
  ∀ s : State,
    (s.nv = none → exec .reset s =
      .next { State.reset with
        pbuf := Config.pulseBufferDraw s.draws, psel := Config.selectorDraw s.draws, draws := s.draws + 1
        input := s.input, port := s.port, trace := s.trace ++ State.reset.trace }) ∧
    (∀ r, s.nv = some r → ∃ a h, exec .reset s =
        .next { State.reset with
          nv := some r, modelAddr := a, hopSeq := h, variant := if r[25] = 0xAB#8 then .ch4 else .ch3
          fsValues := Vector.replicate 4 (Config.cfg.center (if r[25] = 0xAB#8 then .ch4 else .ch3))
          radioAddr := a, radioChannel := h[0]
          pbuf := Config.pulseBufferDraw s.draws, psel := Config.selectorDraw s.draws, draws := s.draws + 1
          input := s.input, port := s.port
          trace := s.trace ++
            [.cmd .radioInit, .cmd (.ce false), .cmd (.setAddr a), .cmd .hopTimerStop, .cmd (.setChannel h[0]), .cmd .flushRx,
             .cmd .clearIrq, .cmd (.ce true)] } ∧
      (∀ i : Fin 5, a[i] = r[i.val]) ∧ (∀ i : Fin 20, h[i] = r[5 + i.val]))

/-- R186: the boot sequence alone, in any state: the live configuration parsed from the stored record (zeros, CH3 and NO_RECORD
without one), the failsafe defaults of its variant, the radio configured and re-armed. -/
def Obligations.BootLoadsStoredConfiguration : Prop :=
  ∀ s : State, ∃ a h v es, exec .boot s =
      .next { s with
        modelAddr := a, hopSeq := h, variant := v
        fsEnabled := false, fsValues := Vector.replicate 4 (Config.cfg.center v)
        radioCfg :=
          { addrWidth := 5, payload := 10, crc := Config.cfg.radioCrcMode, dataRate := Config.cfg.radioDataRate
            autoAck := false, irqSource := .rxDataReady }
        radioAddr := a, radioChannel := h[0], rxq := [], radioFlag := false, radioCe := true
        hopIndex := 0#5, missCount := 0#5, hopTimerRunning := false, hopFlag := false
        trace := s.trace ++ es ++
          [.cmd .radioInit, .cmd (.ce false), .cmd (.setAddr a), .cmd .hopTimerStop, .cmd (.setChannel h[0]), .cmd .flushRx,
           .cmd .clearIrq, .cmd (.ce true)] } ∧
    (s.nv = none → a = Vector.replicate 5 0#8 ∧ h = Vector.replicate 20 0#8 ∧ v = .ch3 ∧
      es = [.cond .noRecord .nothing]) ∧
    (∀ r, s.nv = some r → (∀ i : Fin 5, a[i] = r[i.val]) ∧ (∀ i : Fin 20, h[i] = r[5 + i.val]) ∧
      v = (if r[25] = 0xAB#8 then .ch4 else .ch3) ∧ es = [])

/-! ### Invariants that every step keeps -/

/-- R184: the state after reset is safe: it meets every invariant below. That it has no stored record is the model's choice (log
entry 4). -/
def Obligations.ResetStateIsSafe : Prop := Safe Config.cfg State.reset

/-- R48 (1), R118: the hop index stays in 0..19 and the miss counter at most 15. -/
def Obligations.StepKeepsHopInRange : Prop :=
  ∀ s t : State, s.port = .event → HopInRange s → step s = .next t → HopInRange t

/-- R48, R32, R100: the stage and the status agree, the checksum stays one an address can have, the hop scheduler is
suspended during a session, and from the marker on (R104) the checksum is that of the record's address and byte 25 an
identifier. -/
def Obligations.StepKeepsSessionCoherent : Prop :=
  ∀ s t : State, s.port = .event → SessionCoherent s → step s = .next t → SessionCoherent t

/-- R48 (3), R130 (1): the status is never Failsafe (nor Receiving) before stick data; and while there has been none, no event
but RESET (the only one that draws, log entry 3) writes the PulseBuffer. -/
def Obligations.StepKeepsFailsafeEarned : Prop :=
  ∀ s t : State, s.port = .event → StatusEarned s → step s = .next t →
    StatusEarned t ∧ (t.everReceived = false → t.draws = s.draws → t.pbuf = s.pbuf ∧ t.psel = s.psel)

/-- R131, R135, R136: in OFF every pin is low and the timer stopped; in state k pin k is high, the timer runs, and no pin but k
and 3 is high. -/
def Obligations.StepKeepsPulseCoherent : Prop :=
  ∀ s t : State, s.port = .event → PulseCoherent s → step s = .next t → PulseCoherent t

/-- R44, R46: the countdowns stay at most their reloads, which `COUNTER_WIDTH` bits hold (log entry 9), and the queue within its
depth. -/
def Obligations.StepKeepsCountdownsAndQueueBounded : Prop :=
  (∀ s t : State, s.port = .event → CountdownsBounded Config.cfg s → QueueBounded Config.cfg s → step s = .next t →
    CountdownsBounded Config.cfg t ∧ QueueBounded Config.cfg t) ∧
  (∀ s : State, CountdownsBounded Config.cfg s →
    s.fsTimer < 2 ^ Config.cfg.counterWidth ∧ s.bindTimer < 2 ^ Config.cfg.counterWidth ∧
      s.blinkTimer < 2 ^ Config.cfg.counterWidth)

/-- R34, R108, R186, R100, R109, R115: the live configuration is the stored record's, and the radio is on the beacon during a
session and else on the live address and the channel of the hop index, listening, with the next word an event. -/
def Obligations.StepKeepsRadioTuned : Prop :=
  ∀ s t : State, BetweenEvents s → ConfigStored s → RadioTuned Config.cfg s → step s = .next t →
    BetweenEvents t ∧ ConfigStored t ∧ RadioTuned Config.cfg t
end

