-- ==== Sys2Proof/Laws/Decode.lean ====
section
/-! SUPPORT. The byte-order helpers are inverse to each other, and reading a byte string off the front of the bytes gives back
the string that was put there. -/

namespace Sys2Proof

theorem append_getLsbD (hi lo : Byte) (i : Nat) :
    BitVec.getLsbD (w := 16) (hi ++ lo) i = if i < 8 then lo.getLsbD i else hi.getLsbD (i - 8) :=
  BitVec.getLsbD_append

@[simp] theorem lo8_append (hi lo : Byte) : BitVec.extractLsb' (n := 16) 0 8 (hi ++ lo) = lo := by
  apply BitVec.eq_of_getLsbD_eq
  intro i h
  rw [BitVec.getLsbD_extractLsb', append_getLsbD]
  simp [h]

@[simp] theorem hi8_append (hi lo : Byte) : BitVec.extractLsb' (n := 16) 8 8 (hi ++ lo) = hi := by
  apply BitVec.eq_of_getLsbD_eq
  intro i h
  rw [BitVec.getLsbD_extractLsb', append_getLsbD]
  simp [h]

/-- A u16 is its high byte followed by its low byte (R13, R54). -/
@[simp] theorem append_extract (v : U16) : (v.extractLsb' 8 8 : Byte) ++ (v.extractLsb' 0 8 : Byte) = v := by
  apply BitVec.eq_of_getLsbD_eq
  intro i h
  rw [append_getLsbD]
  by_cases h8 : i < 8
  · simp [h8]
  · have e : 8 + (i - 8) = i := by omega
    have h16 : i - 8 < 8 := by omega
    simp [h8, e, h16]

theorem lo8_hilo (hi lo : Byte) : lo8 (hilo hi lo) = lo := lo8_append hi lo

theorem hi8_hilo (hi lo : Byte) : hi8 (hilo hi lo) = hi := hi8_append hi lo

theorem hilo_hi8_lo8 (v : U16) : hilo (hi8 v) (lo8 v) = v := append_extract v

theorem takeBytes_append {n : Nat} (v : Vector Byte n) (rest : List Byte) :
    takeBytes n (v.toList ++ rest) = .ok (v, rest) := by
  unfold takeBytes
  have h : n ≤ (v.toList ++ rest).length := by simp
  rw [dif_pos h]
  congr 2
  · apply Vector.toList_inj.mp
    simp
  · simp

theorem takeBytes_ok {n : Nat} {bs : List Byte} {v : Vector Byte n} {rest : List Byte}
    (h : takeBytes n bs = .ok (v, rest)) : bs = v.toList ++ rest := by
  unfold takeBytes at h
  split at h
  · cases h; simp
  · cases h

/-- The two forms of a hop block's test agree: bytes against bytes (R86), and the two bytes as one u16 (R77). -/
theorem hopBlockMatches_eq (k : U16) (seq : Nat) (f : Frame) :
    hopBlockMatches k seq f = isHopBlock k (BitVec.ofNat 8 seq) f := by
  rw [Bool.eq_iff_iff]
  simp only [hopBlockMatches, isHopBlock, Bool.and_eq_true, beq_iff_eq]
  constructor
  · rintro ⟨⟨h0, h1⟩, h2⟩
    exact ⟨by rw [h0, h1]; exact (append_extract k).symm, h2⟩
  · rintro ⟨h, h2⟩
    exact ⟨⟨by rw [h]; exact (lo8_append _ _).symm, by rw [h]; exact (hi8_append _ _).symm⟩, h2⟩

/-- The two identifiers of a variant differ (R10). -/
theorem stickId_ne_failsafeId (c : Cfg) (v : Variant) : c.stickId v ≠ c.failsafeId v := by
  have key : ∀ (a : Byte) (k : Fin 255), a ≠ a + BitVec.ofNat 8 (k.val + 1) := by
    intro a k h
    have h2 := congrArg BitVec.toNat h
    simp only [BitVec.toNat_add, BitVec.toNat_ofNat] at h2
    have ha := a.isLt
    have hk := k.isLt
    omega
  cases v
  · exact key _ _
  · exact key _ _

end Sys2Proof
end

