-- ==== Sys2Proof/Laws/State.lean ====
section
/-! SUPPORT. What each field is after each primitive update of the state: one lemma per field per update, so that no later
proof unfolds a record update. -/

namespace Sys2Proof.Machine

variable (c : Cfg) (cmd : Command) (e : TraceEntry) (code : CondCode) (info : CondInfo) (s : State)

/-! ### `record`: one entry appended to the trace, every other field kept -/

@[simp] theorem record_bindStage : (record e s).bindStage = s.bindStage := rfl
@[simp] theorem record_bindCksum : (record e s).bindCksum = s.bindCksum := rfl
@[simp] theorem record_bindRec : (record e s).bindRec = s.bindRec := rfl
@[simp] theorem record_bindSavedStatus : (record e s).bindSavedStatus = s.bindSavedStatus := rfl
@[simp] theorem record_bindTimer : (record e s).bindTimer = s.bindTimer := rfl
@[simp] theorem record_modelAddr : (record e s).modelAddr = s.modelAddr := rfl
@[simp] theorem record_hopSeq : (record e s).hopSeq = s.hopSeq := rfl
@[simp] theorem record_variant : (record e s).variant = s.variant := rfl
@[simp] theorem record_hopIndex : (record e s).hopIndex = s.hopIndex := rfl
@[simp] theorem record_missCount : (record e s).missCount = s.missCount := rfl
@[simp] theorem record_hopFlag : (record e s).hopFlag = s.hopFlag := rfl
@[simp] theorem record_hopTimerRunning : (record e s).hopTimerRunning = s.hopTimerRunning := rfl
@[simp] theorem record_hopTimerInterval : (record e s).hopTimerInterval = s.hopTimerInterval := rfl
@[simp] theorem record_radioFlag : (record e s).radioFlag = s.radioFlag := rfl
@[simp] theorem record_everReceived : (record e s).everReceived = s.everReceived := rfl
@[simp] theorem record_fsEnabled : (record e s).fsEnabled = s.fsEnabled := rfl
@[simp] theorem record_fsValues : (record e s).fsValues = s.fsValues := rfl
@[simp] theorem record_fsTimer : (record e s).fsTimer = s.fsTimer := rfl
@[simp] theorem record_status : (record e s).status = s.status := rfl
@[simp] theorem record_pbuf : (record e s).pbuf = s.pbuf := rfl
@[simp] theorem record_psel : (record e s).psel = s.psel := rfl
@[simp] theorem record_pstate : (record e s).pstate = s.pstate := rfl
@[simp] theorem record_ptimerRunning : (record e s).ptimerRunning = s.ptimerRunning := rfl
@[simp] theorem record_ptimerReload : (record e s).ptimerReload = s.ptimerReload := rfl
@[simp] theorem record_pin : (record e s).pin = s.pin := rfl
@[simp] theorem record_led : (record e s).led = s.led := rfl
@[simp] theorem record_ledLast : (record e s).ledLast = s.ledLast := rfl
@[simp] theorem record_blinkTimer : (record e s).blinkTimer = s.blinkTimer := rfl
@[simp] theorem record_btnPrev : (record e s).btnPrev = s.btnPrev := rfl
@[simp] theorem record_btnDeb : (record e s).btnDeb = s.btnDeb := rfl
@[simp] theorem record_bindRequest : (record e s).bindRequest = s.bindRequest := rfl
@[simp] theorem record_radioAddr : (record e s).radioAddr = s.radioAddr := rfl
@[simp] theorem record_radioChannel : (record e s).radioChannel = s.radioChannel := rfl
@[simp] theorem record_radioCe : (record e s).radioCe = s.radioCe := rfl
@[simp] theorem record_radioCfg : (record e s).radioCfg = s.radioCfg := rfl
@[simp] theorem record_rxq : (record e s).rxq = s.rxq := rfl
@[simp] theorem record_nv : (record e s).nv = s.nv := rfl
@[simp] theorem record_trace : (record e s).trace = s.trace ++ [e] := rfl
@[simp] theorem record_input : (record e s).input = s.input := rfl
@[simp] theorem record_port : (record e s).port = s.port := rfl
@[simp] theorem record_draws : (record e s).draws = s.draws := rfl

/-! ### `raise`: a condition entry recorded -/

@[simp] theorem raise_bindStage : (raise code info s).bindStage = s.bindStage := rfl
@[simp] theorem raise_bindCksum : (raise code info s).bindCksum = s.bindCksum := rfl
@[simp] theorem raise_bindRec : (raise code info s).bindRec = s.bindRec := rfl
@[simp] theorem raise_bindSavedStatus : (raise code info s).bindSavedStatus = s.bindSavedStatus := rfl
@[simp] theorem raise_bindTimer : (raise code info s).bindTimer = s.bindTimer := rfl
@[simp] theorem raise_modelAddr : (raise code info s).modelAddr = s.modelAddr := rfl
@[simp] theorem raise_hopSeq : (raise code info s).hopSeq = s.hopSeq := rfl
@[simp] theorem raise_variant : (raise code info s).variant = s.variant := rfl
@[simp] theorem raise_hopIndex : (raise code info s).hopIndex = s.hopIndex := rfl
@[simp] theorem raise_missCount : (raise code info s).missCount = s.missCount := rfl
@[simp] theorem raise_hopFlag : (raise code info s).hopFlag = s.hopFlag := rfl
@[simp] theorem raise_hopTimerRunning : (raise code info s).hopTimerRunning = s.hopTimerRunning := rfl
@[simp] theorem raise_hopTimerInterval : (raise code info s).hopTimerInterval = s.hopTimerInterval := rfl
@[simp] theorem raise_radioFlag : (raise code info s).radioFlag = s.radioFlag := rfl
@[simp] theorem raise_everReceived : (raise code info s).everReceived = s.everReceived := rfl
@[simp] theorem raise_fsEnabled : (raise code info s).fsEnabled = s.fsEnabled := rfl
@[simp] theorem raise_fsValues : (raise code info s).fsValues = s.fsValues := rfl
@[simp] theorem raise_fsTimer : (raise code info s).fsTimer = s.fsTimer := rfl
@[simp] theorem raise_status : (raise code info s).status = s.status := rfl
@[simp] theorem raise_pbuf : (raise code info s).pbuf = s.pbuf := rfl
@[simp] theorem raise_psel : (raise code info s).psel = s.psel := rfl
@[simp] theorem raise_pstate : (raise code info s).pstate = s.pstate := rfl
@[simp] theorem raise_ptimerRunning : (raise code info s).ptimerRunning = s.ptimerRunning := rfl
@[simp] theorem raise_ptimerReload : (raise code info s).ptimerReload = s.ptimerReload := rfl
@[simp] theorem raise_pin : (raise code info s).pin = s.pin := rfl
@[simp] theorem raise_led : (raise code info s).led = s.led := rfl
@[simp] theorem raise_ledLast : (raise code info s).ledLast = s.ledLast := rfl
@[simp] theorem raise_blinkTimer : (raise code info s).blinkTimer = s.blinkTimer := rfl
@[simp] theorem raise_btnPrev : (raise code info s).btnPrev = s.btnPrev := rfl
@[simp] theorem raise_btnDeb : (raise code info s).btnDeb = s.btnDeb := rfl
@[simp] theorem raise_bindRequest : (raise code info s).bindRequest = s.bindRequest := rfl
@[simp] theorem raise_radioAddr : (raise code info s).radioAddr = s.radioAddr := rfl
@[simp] theorem raise_radioChannel : (raise code info s).radioChannel = s.radioChannel := rfl
@[simp] theorem raise_radioCe : (raise code info s).radioCe = s.radioCe := rfl
@[simp] theorem raise_radioCfg : (raise code info s).radioCfg = s.radioCfg := rfl
@[simp] theorem raise_rxq : (raise code info s).rxq = s.rxq := rfl
@[simp] theorem raise_nv : (raise code info s).nv = s.nv := rfl
@[simp] theorem raise_trace : (raise code info s).trace = s.trace ++ [.cond code info] := rfl
@[simp] theorem raise_input : (raise code info s).input = s.input := rfl
@[simp] theorem raise_port : (raise code info s).port = s.port := rfl
@[simp] theorem raise_draws : (raise code info s).draws = s.draws := rfl

/-! ### `emit`: the collaborator field the command names, and the trace -/

@[simp] theorem emit_bindStage : (emit c cmd s).bindStage = s.bindStage := by cases cmd <;> rfl
@[simp] theorem emit_bindCksum : (emit c cmd s).bindCksum = s.bindCksum := by cases cmd <;> rfl
@[simp] theorem emit_bindRec : (emit c cmd s).bindRec = s.bindRec := by cases cmd <;> rfl
@[simp] theorem emit_bindSavedStatus : (emit c cmd s).bindSavedStatus = s.bindSavedStatus := by cases cmd <;> rfl
@[simp] theorem emit_bindTimer : (emit c cmd s).bindTimer = s.bindTimer := by cases cmd <;> rfl
@[simp] theorem emit_modelAddr : (emit c cmd s).modelAddr = s.modelAddr := by cases cmd <;> rfl
@[simp] theorem emit_hopSeq : (emit c cmd s).hopSeq = s.hopSeq := by cases cmd <;> rfl
@[simp] theorem emit_variant : (emit c cmd s).variant = s.variant := by cases cmd <;> rfl
@[simp] theorem emit_hopIndex : (emit c cmd s).hopIndex = s.hopIndex := by cases cmd <;> rfl
@[simp] theorem emit_missCount : (emit c cmd s).missCount = s.missCount := by cases cmd <;> rfl
@[simp] theorem emit_hopFlag : (emit c cmd s).hopFlag = s.hopFlag := by cases cmd <;> rfl
@[simp] theorem emit_hopTimerRunning :
    (emit c cmd s).hopTimerRunning = (match cmd with | .hopTimerStart _ => true | .hopTimerStop => false | _ => s.hopTimerRunning) := by cases cmd <;> rfl
@[simp] theorem emit_hopTimerInterval :
    (emit c cmd s).hopTimerInterval = (match cmd with | .hopTimerStart i => i | _ => s.hopTimerInterval) := by cases cmd <;> rfl
@[simp] theorem emit_radioFlag : (emit c cmd s).radioFlag = s.radioFlag := by cases cmd <;> rfl
@[simp] theorem emit_everReceived : (emit c cmd s).everReceived = s.everReceived := by cases cmd <;> rfl
@[simp] theorem emit_fsEnabled : (emit c cmd s).fsEnabled = s.fsEnabled := by cases cmd <;> rfl
@[simp] theorem emit_fsValues : (emit c cmd s).fsValues = s.fsValues := by cases cmd <;> rfl
@[simp] theorem emit_fsTimer : (emit c cmd s).fsTimer = s.fsTimer := by cases cmd <;> rfl
@[simp] theorem emit_status : (emit c cmd s).status = s.status := by cases cmd <;> rfl
@[simp] theorem emit_pbuf : (emit c cmd s).pbuf = s.pbuf := by cases cmd <;> rfl
@[simp] theorem emit_psel : (emit c cmd s).psel = s.psel := by cases cmd <;> rfl
@[simp] theorem emit_pstate : (emit c cmd s).pstate = s.pstate := by cases cmd <;> rfl
@[simp] theorem emit_ptimerRunning :
    (emit c cmd s).ptimerRunning = (match cmd with | .ptimerStop => false | .ptimerStart => true | _ => s.ptimerRunning) := by cases cmd <;> rfl
@[simp] theorem emit_ptimerReload :
    (emit c cmd s).ptimerReload = (match cmd with | .ptimerLoad v => v | _ => s.ptimerReload) := by cases cmd <;> rfl
@[simp] theorem emit_pin : (emit c cmd s).pin = s.pin := by cases cmd <;> rfl
@[simp] theorem emit_led : (emit c cmd s).led = s.led := by cases cmd <;> rfl
@[simp] theorem emit_ledLast : (emit c cmd s).ledLast = s.ledLast := by cases cmd <;> rfl
@[simp] theorem emit_blinkTimer : (emit c cmd s).blinkTimer = s.blinkTimer := by cases cmd <;> rfl
@[simp] theorem emit_btnPrev : (emit c cmd s).btnPrev = s.btnPrev := by cases cmd <;> rfl
@[simp] theorem emit_btnDeb : (emit c cmd s).btnDeb = s.btnDeb := by cases cmd <;> rfl
@[simp] theorem emit_bindRequest : (emit c cmd s).bindRequest = s.bindRequest := by cases cmd <;> rfl
@[simp] theorem emit_radioAddr :
    (emit c cmd s).radioAddr = (match cmd with | .setAddr a => a | _ => s.radioAddr) := by cases cmd <;> rfl
@[simp] theorem emit_radioChannel :
    (emit c cmd s).radioChannel = (match cmd with | .setChannel ch => ch | _ => s.radioChannel) := by cases cmd <;> rfl
@[simp] theorem emit_radioCe :
    (emit c cmd s).radioCe = (match cmd with | .ce b => b | _ => s.radioCe) := by cases cmd <;> rfl
@[simp] theorem emit_radioCfg :
    (emit c cmd s).radioCfg = (match cmd with | .radioInit => radioInitCfg c | _ => s.radioCfg) := by cases cmd <;> rfl
@[simp] theorem emit_rxq :
    (emit c cmd s).rxq = (match cmd with | .flushRx => [] | _ => s.rxq) := by cases cmd <;> rfl
@[simp] theorem emit_nv :
    (emit c cmd s).nv = (match cmd with | .nvSave r => some r | _ => s.nv) := by cases cmd <;> rfl
@[simp] theorem emit_trace : (emit c cmd s).trace = s.trace ++ [.cmd cmd] := by cases cmd <;> rfl
@[simp] theorem emit_input : (emit c cmd s).input = s.input := by cases cmd <;> rfl
@[simp] theorem emit_port : (emit c cmd s).port = s.port := by cases cmd <;> rfl
@[simp] theorem emit_draws : (emit c cmd s).draws = s.draws := by cases cmd <;> rfl

/-! ### The flag updates, each one field -/

@[simp] theorem setRadioFlag_eq : setRadioFlag s = { s with radioFlag := true } := rfl
@[simp] theorem clearRadioFlag_eq : clearRadioFlag s = { s with radioFlag := false } := rfl
@[simp] theorem setHopFlag_eq : setHopFlag s = { s with hopFlag := true } := rfl
@[simp] theorem clearHopFlag_eq : clearHopFlag s = { s with hopFlag := false } := rfl
@[simp] theorem setEverReceived_eq : setEverReceived s = { s with everReceived := true } := rfl
@[simp] theorem clearBindRequest_eq : clearBindRequest s = { s with bindRequest := false } := rfl
@[simp] theorem setFsEnabled_eq (b : Bool) : setFsEnabled b s = { s with fsEnabled := b } := rfl

end Sys2Proof.Machine
end

