-- ==== Sys2Proof/Laws/Ops.lean ====
section
/-! SUPPORT. For each shared operation, once, everything it can do: the state it gives, as one record update. -/

namespace Sys2Proof.Machine

variable (c : Cfg) (s : State)

theorem emit_hopTimerStop_eq :
    emit c .hopTimerStop s = { s with hopTimerRunning := false, trace := s.trace ++ [.cmd .hopTimerStop] } := rfl

theorem emit_clearIrq_eq : emit c .clearIrq s = { s with trace := s.trace ++ [.cmd .clearIrq] } := rfl

/-! ### The radio queue -/

theorem rxRead_eq_none_iff : rxRead s = none ↔ s.rxq = [] := by
  unfold rxRead; split <;> simp_all

theorem rxRead_eq_some_iff (f : Frame) (t : State) :
    rxRead s = some (f, t) ↔ ∃ q, s.rxq = f :: q ∧ t = { s with rxq := q } := by
  unfold rxRead; split <;> simp_all [eq_comm]

theorem radioReceive_cases (f : Frame) :
    radioReceive c f s = s ∨
      (s.radioCe = true ∧ s.rxq.length ≠ c.rxQueueDepth ∧ radioReceive c f s = { s with rxq := s.rxq ++ [f] }) := by
  unfold radioReceive
  split
  · exact .inl rfl
  · split
    · exact .inl rfl
    · exact .inr ⟨by simp_all, by assumption, rfl⟩

/-! ### The PulseBuffer -/

theorem overlay_get (n : Nat) (vals old : ChannelSet) (k : Fin 4) :
    (overlay n vals old)[k] = if k.val < n then vals[k] else old[k] := by simp [overlay]

theorem otherSlot_ne (i : Fin 2) : otherSlot i ≠ i := by
  match i with
  | 0 => decide
  | 1 => decide

theorem otherSlot_otherSlot (i : Fin 2) : otherSlot (otherSlot i) = i := by
  match i with
  | 0 => decide
  | 1 => decide

/-- The slot that was active keeps its contents through a publish (R62, R189). -/
theorem writePulseBuffer_keeps_active (vals : ChannelSet) : (writePulseBuffer vals s).pbuf[s.psel] = s.pbuf[s.psel] := by
  have h : (otherSlot s.psel).val ≠ s.psel.val := fun e => otherSlot_ne s.psel (Fin.ext e)
  simp [writePulseBuffer, h]

/-- The slot that a publish makes active holds the published entries, and its old ones past N(variant) (R124). -/
theorem writePulseBuffer_new_active (vals : ChannelSet) :
    (writePulseBuffer vals s).pbuf[(writePulseBuffer vals s).psel] =
      overlay (channelCount s.variant) vals s.pbuf[otherSlot s.psel] := by
  simp [writePulseBuffer]

/-- The same, entry by entry, with the slot written as R124 writes it. -/
theorem writePulseBuffer_written (vals : ChannelSet) (k : Fin 4) :
    (writePulseBuffer vals s).pbuf[1 - s.psel][k] =
      if k.val < channelCount s.variant then vals[k] else s.pbuf[1 - s.psel][k] :=
  (congrArg (fun v : ChannelSet => v[k]) (writePulseBuffer_new_active s vals)).trans (overlay_get _ _ _ _)

theorem writePulseBuffer_eq (vals : ChannelSet) :
    writePulseBuffer vals s =
      { s with pbuf := (writePulseBuffer vals s).pbuf, psel := otherSlot s.psel } := rfl

/-! ### The Bind Handshake -/

theorem armBeacon_eq :
    armBeacon c s =
      { s with
        radioAddr := c.beaconAddr, radioChannel := c.beaconChannel, rxq := [], radioFlag := false, radioCe := true
        trace := s.trace ++
          [.cmd (.ce false), .cmd (.setAddr c.beaconAddr), .cmd (.setChannel c.beaconChannel), .cmd .flushRx, .cmd .clearIrq,
           .cmd (.ce true)] } := by
  simp [armBeacon, emit, applyCommand, record]

theorem bindEnter_eq :
    bindEnter c s =
      { s with
        bindSavedStatus := s.status, status := .binding, bindStage := .awaitAddr, bindTimer := c.bindTimeoutTicks
        hopTimerRunning := false, hopFlag := false
        radioAddr := c.beaconAddr, radioChannel := c.beaconChannel, rxq := [], radioFlag := false, radioCe := true
        trace := s.trace ++
          [.cmd .hopTimerStop, .cmd (.ce false), .cmd (.setAddr c.beaconAddr), .cmd (.setChannel c.beaconChannel),
           .cmd .flushRx, .cmd .clearIrq, .cmd (.ce true)] } := by
  simp [bindEnter, armBeacon_eq, emit, applyCommand, record]

theorem rearm_eq :
    rearm c s =
      { s with
        radioAddr := s.modelAddr, radioChannel := s.hopSeq[0], rxq := [], radioFlag := false, radioCe := true
        hopIndex := 0#5, missCount := 0#5, hopTimerRunning := false, hopFlag := false
        trace := s.trace ++
          [.cmd (.ce false), .cmd (.setAddr s.modelAddr), .cmd .hopTimerStop, .cmd (.setChannel s.hopSeq[0]), .cmd .flushRx,
           .cmd .clearIrq, .cmd (.ce true)] } := by
  simp [rearm, emit, applyCommand, record]

theorem bindTimeout_eq :
    bindTimeout c s =
      { s with
        bindStage := .idle, status := s.bindSavedStatus
        radioAddr := s.modelAddr, radioChannel := s.hopSeq[0], rxq := [], radioFlag := false, radioCe := true
        hopIndex := 0#5, missCount := 0#5, hopTimerRunning := false, hopFlag := false
        trace := s.trace ++
          [.cond .bindTimeout .nothing, .cmd (.ce false), .cmd (.setAddr s.modelAddr), .cmd .hopTimerStop,
           .cmd (.setChannel s.hopSeq[0]), .cmd .flushRx, .cmd .clearIrq, .cmd (.ce true)] } := by
  simp [bindTimeout, rearm_eq, raise, record]

theorem bindCommit_eq :
    bindCommit c s =
      { s with
        nv := some s.bindRec, modelAddr := recordAddress s.bindRec, hopSeq := recordHops s.bindRec
        variant := recordVariant s.bindRec, status := .idle, bindStage := .idle
        radioAddr := recordAddress s.bindRec, radioChannel := (recordHops s.bindRec)[0], rxq := [], radioFlag := false
        radioCe := true, hopIndex := 0#5, missCount := 0#5, hopTimerRunning := false, hopFlag := false
        trace := s.trace ++
          [.cmd (.nvSave s.bindRec), .cmd (.ce false), .cmd (.setAddr (recordAddress s.bindRec)), .cmd .hopTimerStop,
           .cmd (.setChannel (recordHops s.bindRec)[0]), .cmd .flushRx, .cmd .clearIrq, .cmd (.ce true)] } := by
  simp [bindCommit, rearm_eq, bindParse, emit, applyCommand, record]

/-! ### The Hop Scheduler -/

theorem hopResync_eq :
    hopResync c s =
      { s with
        hopTimerRunning := false, hopIndex := 0#5, rxq := [], radioChannel := s.hopSeq[0], missCount := 0#5
        trace := s.trace ++
          [.cmd .hopTimerStop, .cmd .flushRx, .cmd (.setChannel s.hopSeq[0]), .cond .hopResync .nothing] } := by
  simp [hopResync, emit, applyCommand, record, raise]

theorem hopValid_eq :
    hopValid c s =
      { s with
        missCount := 0#5, hopTimerRunning := true, hopTimerInterval := .first
        hopFlag := if c.restartClearsHopFlag then false else s.hopFlag
        trace := s.trace ++ [.cmd .hopTimerStop, .cmd (.hopTimerStart .first)] } := by
  unfold hopValid
  split <;> simp_all [emit, applyCommand, record, clearHopFlag]

theorem nextHopIndex_toNat (i : BitVec 5) : (nextHopIndex i).toNat = (i.toNat + 1) % 20 := by
  have h : (i.toNat + 1) % 20 < 20 := Nat.mod_lt _ (by decide)
  simp only [nextHopIndex, BitVec.toNat_ofNat]
  omega

theorem nextHopIndex_lt (i : BitVec 5) : (nextHopIndex i).toNat < 20 := by
  rw [nextHopIndex_toNat]; exact Nat.mod_lt _ (by decide)

/-! ### The Pulse Generator -/

theorem pulseEnter_eq (k : Fin 4) :
    pulseEnter c k s =
      { s with
        pin := enterPins c s.variant k s.pin, pstate := .ch k, ptimerRunning := true, ptimerReload := s.pbuf[s.psel][k]
        trace := s.trace ++ [.cmd .ptimerStop, .cmd (.ptimerLoad s.pbuf[s.psel][k]), .cmd .ptimerStart] } := by
  simp [pulseEnter, emit, applyCommand, record]

theorem pulseOff_eq (k : Fin 4) :
    pulseOff c k s =
      { s with
        pin := offPins s.variant k s.pin, pstate := .off, ptimerRunning := false
        trace := s.trace ++ [.cmd .ptimerStop] } := by
  simp [pulseOff, emit, applyCommand, record]

/-! ### The drains -/

theorem rxDrain_eq (last : Option Frame) (n : Nat) (h : s.rxq.length ≤ n) :
    rxDrain n last s = ((s.rxq.getLast?).or last, { s with rxq := [] }) := by
  induction n generalizing last s with
  | zero =>
    have hq : s.rxq = [] := List.length_eq_zero_iff.mp (Nat.le_zero.mp h)
    cases s
    simp_all [rxDrain]
  | succ n ih =>
    rcases hq : s.rxq with _ | ⟨f, q⟩
    · have e : rxRead s = none := (rxRead_eq_none_iff s).mpr hq
      cases s
      simp_all [rxDrain]
    · have e : rxRead s = some (f, { s with rxq := q }) := (rxRead_eq_some_iff s _ _).mpr ⟨q, hq, rfl⟩
      have hn : q.length ≤ n := by rw [hq] at h; simpa using h
      simp only [rxDrain, e]
      rw [ih (s := { s with rxq := q }) (last := some f) hn]
      rcases q with _ | ⟨g, q⟩ <;> simp [List.getLast?_cons]

/-- The receiver phase on a set flag (R119): the queue is emptied and only its last frame is handled. -/
theorem rxPhase_eq (h : s.radioFlag = true) :
    rxPhase c s =
      (match s.rxq.getLast? with
      | none => { s with radioFlag := false, rxq := [], trace := s.trace ++ [.cmd .clearIrq] }
      | some f => handleFrame c f { s with radioFlag := false, rxq := [], trace := s.trace ++ [.cmd .clearIrq] }) := by
  have e := rxDrain_eq { s with radioFlag := false } none s.rxq.length (Nat.le_refl _)
  simp only [Option.or_none] at e
  unfold rxPhase
  simp only [h, Bool.true_eq_false, if_false, clearRadioFlag]
  rw [e]
  rfl

theorem rxPhase_idle (h : s.radioFlag = false) : rxPhase c s = s := by simp [rxPhase, h]

/-! ### The dispatch -/

theorem hopPhase_idle (h : s.hopFlag = false) : hopPhase c s = s := by simp [hopPhase, h]

theorem buttonPhase_idle (h : s.bindRequest = false) : buttonPhase c s = s := by simp [buttonPhase, h]

theorem bindPhase_idle (h : s.bindStage = .idle) : bindPhase c s = s := by simp [bindPhase, h]

theorem satdec_eq (x : Nat) : satdec x = x - 1 := by
  unfold satdec
  split <;> omega

end Sys2Proof.Machine
end

