-- ==== Sys2Proof/Laws/Phases.lean ====
section
/-! SUPPORT. For each frame operation and each phase of the dispatch, once, everything it can do; and the induction over the
bind drain. -/

namespace Sys2Proof.Machine

variable (c : Cfg) (f : Frame) (s : State)

/-! ### Frame operations -/

theorem stickFrame_eq :
    stickFrame c f s =
      { s with
        pbuf := (writePulseBuffer (frameChannels f) s).pbuf, psel := otherSlot s.psel, status := .receiving
        fsTimer := c.fsTimeoutTicks, everReceived := true
        missCount := 0#5, hopTimerRunning := true, hopTimerInterval := .first
        hopFlag := if c.restartClearsHopFlag then false else s.hopFlag
        trace := s.trace ++ [.cmd .hopTimerStop, .cmd (.hopTimerStart .first)] } := by
  unfold stickFrame
  rw [hopValid_eq, writePulseBuffer_eq s (frameChannels f)]
  rfl

theorem failsafeEnableFrame_eq :
    failsafeEnableFrame c f s =
      { s with
        fsEnabled := true, fsValues := overlay (channelCount s.variant) (frameChannels f) s.fsValues
        missCount := 0#5, hopTimerRunning := true, hopTimerInterval := .first
        hopFlag := if c.restartClearsHopFlag then false else s.hopFlag
        trace := s.trace ++ [.cmd .hopTimerStop, .cmd (.hopTimerStart .first)] } := by
  unfold failsafeEnableFrame
  rw [hopValid_eq]
  rfl

theorem failsafeDisableFrame_eq :
    failsafeDisableFrame c s =
      { s with
        fsEnabled := false, fsValues := Vector.replicate 4 (c.center s.variant)
        missCount := 0#5, hopTimerRunning := true, hopTimerInterval := .first
        hopFlag := if c.restartClearsHopFlag then false else s.hopFlag
        trace := s.trace ++ [.cmd .hopTimerStop, .cmd (.hopTimerStart .first)] } := by
  unfold failsafeDisableFrame
  rw [hopValid_eq]
  rfl

theorem bindBlock3_eq : bindBlock3 c f s = bindCommit c { s with bindRec := recordBlock 14 6 f s.bindRec } := rfl

/-- What a frame can do in data mode (R86, R120). -/
theorem handleFrame_data (h : s.bindStage = .idle) :
    (f[7] = c.stickId s.variant ∧ handleFrame c f s = stickFrame c f s) ∨
      (f[7] ≠ c.stickId s.variant ∧
        (handleFrame c f s = failsafeEnableFrame c f s ∨ handleFrame c f s = failsafeDisableFrame c s ∨
          handleFrame c f s = unknownFrame f s)) := by
  by_cases h7 : f[7] = c.stickId s.variant
  · exact .inl ⟨h7, by simp [handleFrame, decodeFrame, frameMode, h, h7, runFrame]⟩
  · refine .inr ⟨h7, ?_⟩
    by_cases h1 : f[7] = c.failsafeId s.variant ∧ f[8] = c.fsEnableMarker
    · exact .inl (by simp [handleFrame, decodeFrame, frameMode, h, h1, runFrame, (stickId_ne_failsafeId c s.variant).symm])
    · by_cases h2 : f[7] = c.failsafeId s.variant
      · exact .inr (.inl (by simp_all [handleFrame, decodeFrame, frameMode, runFrame]))
      · exact .inr (.inr (by simp [handleFrame, decodeFrame, frameMode, h, h7, h2, runFrame]))

/-- What a failsafe frame does (R120, R122). -/
theorem handleFrame_failsafe (h : s.bindStage = .idle) (h7 : f[7] = c.failsafeId s.variant) :
    handleFrame c f s = failsafeEnableFrame c f s ∨ handleFrame c f s = failsafeDisableFrame c s := by
  by_cases h8 : f[8] = c.fsEnableMarker
  · exact .inl (by simp [handleFrame, decodeFrame, frameMode, h, h7, h8, runFrame, (stickId_ne_failsafeId c s.variant).symm])
  · exact .inr (by simp [handleFrame, decodeFrame, frameMode, h, h7, h8, runFrame, (stickId_ne_failsafeId c s.variant).symm])

/-- What a frame can do in a session (R86, R99): advance the stage by one, commit from the last one, or be rejected. -/
theorem handleFrame_bind (h : s.bindStage ≠ .idle) :
    (s.bindStage = .awaitAddr ∧ handleFrame c f s = bindMarker0 f s) ∨
      (s.bindStage = .awaitHop1 ∧ handleFrame c f s = bindBlock1 f s) ∨
      (s.bindStage = .awaitHop2 ∧ handleFrame c f s = bindBlock2 f s) ∨
      (s.bindStage = .awaitHop3 ∧ handleFrame c f s = bindBlock3 c f s) ∨
      handleFrame c f s = bindRejectFrame f s := by
  rcases hs : s.bindStage
  · exact absurd hs h
  · rcases hm : markerVariant f with _ | v
    · exact .inr (.inr (.inr (.inr (by simp [handleFrame, decodeFrame, frameMode, hs, hm, runFrame]))))
    · exact .inl ⟨rfl, by cases v <;> simp [handleFrame, decodeFrame, frameMode, hs, hm, runFrame]⟩
  · by_cases hb : hopBlockMatches s.bindCksum (BindStage.code .awaitHop1 - 2) f
    · exact .inr (.inl ⟨rfl, by simp [handleFrame, decodeFrame, frameMode, hs, hb, runFrame]⟩)
    · exact .inr (.inr (.inr (.inr (by simp [handleFrame, decodeFrame, frameMode, hs, hb, runFrame]))))
  · by_cases hb : hopBlockMatches s.bindCksum (BindStage.code .awaitHop2 - 2) f
    · exact .inr (.inr (.inl ⟨rfl, by simp [handleFrame, decodeFrame, frameMode, hs, hb, runFrame]⟩))
    · exact .inr (.inr (.inr (.inr (by simp [handleFrame, decodeFrame, frameMode, hs, hb, runFrame]))))
  · by_cases hb : hopBlockMatches s.bindCksum (BindStage.code .awaitHop3 - 2) f
    · exact .inr (.inr (.inr (.inl ⟨rfl, by simp [handleFrame, decodeFrame, frameMode, hs, hb, runFrame]⟩)))
    · exact .inr (.inr (.inr (.inr (by simp [handleFrame, decodeFrame, frameMode, hs, hb, runFrame]))))

/-- A frame that leaves the session active leaves the queue, the countdowns and the radio flag alone (R104 to R106). -/
theorem handleFrame_session (h : s.bindStage ≠ .idle) (h' : (handleFrame c f s).bindStage ≠ .idle) :
    (handleFrame c f s).rxq = s.rxq ∧ (handleFrame c f s).bindTimer = s.bindTimer ∧
      (handleFrame c f s).fsTimer = s.fsTimer ∧ (handleFrame c f s).radioFlag = s.radioFlag := by
  rcases handleFrame_bind c f s h with ⟨_, e⟩ | ⟨_, e⟩ | ⟨_, e⟩ | ⟨_, e⟩ | e <;> rw [e] at h' ⊢
  · exact ⟨rfl, rfl, rfl, rfl⟩
  · exact ⟨rfl, rfl, rfl, rfl⟩
  · exact ⟨rfl, rfl, rfl, rfl⟩
  · rw [bindBlock3_eq, bindCommit_eq] at h'; simp at h'
  · exact ⟨rfl, rfl, rfl, rfl⟩

/-! ### The bind drain -/

theorem bindDrain_nil (n : Nat) (h : s.rxq = []) : bindDrain c n s = emit c .clearIrq s := by
  cases n with
  | zero => rfl
  | succ n => simp [bindDrain, (rxRead_eq_none_iff s).mpr h]

theorem bindDrain_cons (n : Nat) (q : List Frame) (h : s.rxq = f :: q) :
    bindDrain c (n + 1) s =
      (if (handleFrame c f { s with rxq := q }).bindStage = .idle then handleFrame c f { s with rxq := q }
      else bindDrain c n (handleFrame c f { s with rxq := q })) := by
  simp [bindDrain, (rxRead_eq_some_iff s f _).mpr ⟨q, h, rfl⟩]

/-- The induction over the bind drain: a property that a queued frame's handling keeps during a session, and that CLEAR_IRQ
keeps, holds after the drain if it holds before. -/
theorem bindDrain_induction {P : State → Prop} (hi : ∀ s, P s → P (emit c .clearIrq s))
    (hf : ∀ s f q, s.bindStage ≠ .idle → s.rxq = f :: q → P s → P (handleFrame c f { s with rxq := q })) (n : Nat)
    (s : State) (hs : s.bindStage ≠ .idle) (h : P s) : P (bindDrain c n s) := by
  induction n generalizing s with
  | zero => exact hi s h
  | succ n ih =>
    rcases hq : s.rxq with _ | ⟨f, q⟩
    · rw [bindDrain_nil c s _ hq]; exact hi s h
    · rw [bindDrain_cons c f s n q hq]
      have h' := hf s f q hs hq h
      split
      · exact h'
      · exact ih _ (by assumption) h'

/-- What the bind phase can do (R103). -/
theorem bindPhase_cases :
    (s.bindStage = .idle ∧ bindPhase c s = s) ∨
      (s.bindStage ≠ .idle ∧ s.bindTimer = 0 ∧ bindPhase c s = bindTimeout c s) ∨
      (s.bindStage ≠ .idle ∧ s.bindTimer ≠ 0 ∧ s.radioFlag = false ∧ bindPhase c s = s) ∨
      (s.bindStage ≠ .idle ∧ s.bindTimer ≠ 0 ∧ s.radioFlag = true ∧
        bindPhase c s = bindDrain c s.rxq.length { s with radioFlag := false }) := by
  unfold bindPhase
  split
  · exact .inl ⟨by assumption, rfl⟩
  · split
    · exact .inr (.inl ⟨by assumption, by assumption, rfl⟩)
    · split
      · exact .inr (.inr (.inl ⟨by assumption, by assumption, by assumption, rfl⟩))
      · exact .inr (.inr (.inr ⟨by assumption, by assumption, by simp_all, rfl⟩))

/-! ### The other phases -/

/-- What the button phase can do (R95). -/
theorem buttonPhase_cases :
    (s.bindRequest = false ∧ buttonPhase c s = s) ∨
      (s.bindRequest = true ∧ s.bindStage = .idle ∧ buttonPhase c s = bindEnter c { s with bindRequest := false }) ∨
      (s.bindRequest = true ∧ s.bindStage ≠ .idle ∧ c.rebindPolicy = .ignore ∧
        buttonPhase c s = { s with bindRequest := false }) ∨
      (s.bindRequest = true ∧ s.bindStage ≠ .idle ∧ c.rebindPolicy = .restart ∧
        buttonPhase c s = bindRestart c { s with bindRequest := false }) := by
  rcases hr : s.bindRequest
  · exact .inl ⟨rfl, buttonPhase_idle c s hr⟩
  · by_cases hs : s.bindStage = .idle
    · exact .inr (.inl ⟨rfl, hs, by simp [buttonPhase, hr, hs]⟩)
    · rcases hp : c.rebindPolicy
      · exact .inr (.inr (.inl ⟨rfl, hs, rfl, by simp [buttonPhase, hr, hs, hp]⟩))
      · exact .inr (.inr (.inr ⟨rfl, hs, rfl, by simp [buttonPhase, hr, hs, hp]⟩))

/-- What the failsafe phase can do (R126). -/
theorem fsPhase_cases :
    ((s.everReceived = false ∨ s.fsTimer ≠ 0) ∧ fsPhase c s = s) ∨
      (s.everReceived = true ∧ s.fsTimer = 0 ∧
        fsPhase c s =
          { s with
            pbuf := (writePulseBuffer (fallback c s) s).pbuf, psel := otherSlot s.psel, status := .failsafe
            trace := s.trace ++ (if s.status = .failsafe then [] else [.cond .failsafeEnter .nothing]) }) := by
  rcases he : s.everReceived
  · exact .inl ⟨.inl rfl, by simp [fsPhase, he]⟩
  · by_cases ht : s.fsTimer = 0
    · refine .inr ⟨rfl, ht, ?_⟩
      by_cases hs : s.status = .failsafe
      · simp [fsPhase, he, ht, raiseFailsafeEnter, writePulseBuffer, hs]
      · simp [fsPhase, he, ht, raiseFailsafeEnter, writePulseBuffer, hs, raise, record]
    · exact .inl ⟨.inr ht, by simp [fsPhase, he, ht]⟩

/-- What the hop phase can do (R115). -/
theorem hopPhase_cases :
    (s.hopFlag = false ∧ hopPhase c s = s) ∨
      (s.hopFlag = true ∧ 15 < (s.missCount + 1#5).toNat ∧
        hopPhase c s =
          { s with
            hopFlag := false, hopTimerRunning := false, hopIndex := 0#5, rxq := [], radioChannel := s.hopSeq[0]
            missCount := 0#5
            trace := s.trace ++
              [.cmd .hopTimerStop, .cmd .flushRx, .cmd (.setChannel s.hopSeq[0]), .cond .hopResync .nothing] }) ∨
      (s.hopFlag = true ∧ (s.missCount + 1#5).toNat ≤ 15 ∧
        hopPhase c s =
          { s with
            hopFlag := false, missCount := s.missCount + 1#5, hopIndex := nextHopIndex s.hopIndex
            radioChannel := hopChannel s.hopSeq (nextHopIndex s.hopIndex)
            trace := s.trace ++ [.cmd (.setChannel (hopChannel s.hopSeq (nextHopIndex s.hopIndex)))] }) := by
  rcases hf : s.hopFlag
  · exact .inl ⟨rfl, hopPhase_idle c s hf⟩
  · by_cases hm : 15 < (s.missCount + 1#5).toNat
    · refine .inr (.inl ⟨rfl, hm, ?_⟩)
      simp only [hopPhase, hf, if_true, hopMiss, clearHopFlag_eq, hopMissThreshold, hm, hopResync_eq]
    · refine .inr (.inr ⟨rfl, by omega, ?_⟩)
      simp only [hopPhase, hf, if_true, hopMiss, clearHopFlag_eq, hopMissThreshold, hm, if_false]
      rfl

/-- What the LED phase can do (R141): it writes only the three LED fields. -/
theorem ledPhase_eq :
    ledPhase c s =
      { s with
        led := (ledPhase c s).led, ledLast := (ledPhase c s).ledLast, blinkTimer := (ledPhase c s).blinkTimer } := by
  unfold ledPhase
  split
  · rfl
  · split
    · rfl
    · split <;> rfl

end Sys2Proof.Machine
end

