-- ==== Sys2Proof/Laws/Step.lean ====
section
/-! SUPPORT. What one step can do: the fetch reads one event, and the state after it is one of seven. -/

namespace Sys2Proof.Machine

variable (s t : State)

theorem fetch_ok_iff (c : Cfg) (i : Instr) :
    fetch c s = .ok (i, t) ↔
      ∃ rest, s.input ≠ [] ∧ decode c s.port (frameMode s) s.input = .ok (i, rest) ∧
        t = { s with input := rest, port := .event } := by
  unfold fetch
  rcases s.input with _ | ⟨b, bs⟩
  · simp
  · simp only
    rcases decode c s.port (frameMode s) (b :: bs) with e | ⟨j, rest⟩ <;> simp [eq_comm]

/-- An event byte decodes to one of the seven events (R73). -/
theorem decodeEvent_cases (bs rest : List Byte) (i : Instr) (h : decodeEvent bs = .ok (i, rest)) :
    i = .reset ∨ (∃ b, i = .tick b) ∨ (∃ f, i = .rxf f) ∨ i = .rirq ∨ i = .hexp ∨ i = .pexp ∨ i = .tstart := by
  unfold decodeEvent at h
  split at h
  · cases h
  · rename_i b bs
    split at h
    case h_4 =>
      rcases e : takeBytes 10 bs with er | ⟨f, r⟩
      · rw [e] at h; cases h
      · rw [e] at h; cases h; simp
    all_goals first
      | (cases h; simp)
      | (split at h <;> cases h)

theorem execHexp_next (h : execHexp s = .next t) : s.hopTimerRunning = true ∧ t = hopExpire s := by
  unfold execHexp at h
  split at h
  · cases h; exact ⟨by assumption, rfl⟩
  · cases h

theorem execPexp_next (h : execPexp s = .next t) :
    ∃ k, s.ptimerRunning = true ∧ s.pstate = .ch k ∧ t = pulseNext Config.cfg k s := by
  unfold execPexp at h
  split at h <;> cases h
  exact ⟨_, by assumption, by assumption, rfl⟩

/-- What one step from a state that reads an event can do (R66): handle one event, whole, on the state with the event's
bytes consumed. -/
theorem step_event_cases (hp : s.port = .event) (h : step s = .next t) :
    ∃ s₀ rest, s₀ = { s with input := rest, port := .event } ∧
      (t = resetBlock Config.cfg (Config.pulseBufferDraw s.draws) (Config.selectorDraw s.draws) s₀ ∨
        (∃ b, t = dispatch Config.cfg b s₀) ∨ (∃ f, t = radioReceive Config.cfg f s₀) ∨ t = setRadioFlag s₀ ∨
        (s.hopTimerRunning = true ∧ t = hopExpire s₀) ∨
        (∃ k, s.ptimerRunning = true ∧ s.pstate = .ch k ∧ t = pulseNext Config.cfg k s₀) ∨
        t = trainStart Config.cfg s₀) := by
  unfold step at h
  rcases e : fetch Config.cfg s with r | ⟨i, s₀⟩
  · rw [e] at h; cases h
  · rw [e] at h
    obtain ⟨rest, -, hd, rfl⟩ := (fetch_ok_iff s s₀ _ i).mp e
    rw [hp] at hd
    refine ⟨_, rest, rfl, ?_⟩
    rcases decodeEvent_cases _ _ _ hd with rfl | ⟨b, rfl⟩ | ⟨f, rfl⟩ | rfl | rfl | rfl | rfl
    · exact .inl (Host.Outcome.next.inj h).symm
    · exact .inr (.inl ⟨b, (Host.Outcome.next.inj h).symm⟩)
    · exact .inr (.inr (.inl ⟨f, (Host.Outcome.next.inj h).symm⟩))
    · exact .inr (.inr (.inr (.inl (Host.Outcome.next.inj h).symm)))
    · exact .inr (.inr (.inr (.inr (.inl (execHexp_next _ _ h)))))
    · exact .inr (.inr (.inr (.inr (.inr (.inl (execPexp_next _ _ h))))))
    · exact .inr (.inr (.inr (.inr (.inr (.inr (Host.Outcome.next.inj h).symm)))))

end Sys2Proof.Machine
end

