-- ==== Sys2Proof/Laws/Dispatch.lean ====
section
/-! SUPPORT. The inductions over one dispatch: a property that every phase keeps is kept by the whole dispatch, the receiver
phase keeps what its frame operations keep, and a run of two lists of operations is the run of one after the other. -/

namespace Sys2Proof.Machine

variable (c : Cfg) (s : State)

/-- DISP_TICK as one record update (R144, R145). -/
theorem tickPhase_eq (b : Bool) :
    tickPhase b s =
      { s with
        fsTimer := s.fsTimer - 1, bindTimer := s.bindTimer - 1, blinkTimer := s.blinkTimer - 1
        btnDeb := debounced b s.btnPrev s.btnDeb, btnPrev := b
        bindRequest := pressEdge s.btnDeb (debounced b s.btnPrev s.btnDeb) } := by
  simp [tickPhase, tickButton, tickCountdowns, satdec_eq]

/-- A released sample raises no bind request (R145). -/
theorem tickPhase_released : (tickPhase false s).bindRequest = false := by
  rw [tickPhase_eq]
  simp only [pressEdge, debounced]
  cases s.btnDeb <;> simp

/-- What the receiver phase keeps: what its draining of the queue and every frame operation in data mode keep. -/
theorem rxPhase_keeps {P : State → Prop} (hi : s.bindStage = .idle) (h : P s)
    (hq : P { s with radioFlag := false, rxq := [], trace := s.trace ++ [.cmd .clearIrq] })
    (hf : ∀ s f, s.bindStage = .idle → P s → P (handleFrame c f s)) : P (rxPhase c s) := by
  rcases hr : s.radioFlag
  · rw [rxPhase_idle c s hr]; exact h
  · rw [rxPhase_eq c s hr]
    split
    · exact hq
    · exact hf _ _ hi hq

/-- No frame operation of data mode leaves data mode (R99). -/
theorem rxPhase_stage (hi : s.bindStage = .idle) : (rxPhase c s).bindStage = .idle := by
  refine rxPhase_keeps c s (P := fun s => s.bindStage = .idle) hi hi hi fun s f hi _ => ?_
  rcases handleFrame_data c f s hi with ⟨-, e⟩ | ⟨-, e | e | e⟩ <;> rw [e]
  · rw [stickFrame_eq]; exact hi
  · rw [failsafeEnableFrame_eq]; exact hi
  · rw [failsafeDisableFrame_eq]; exact hi
  · exact hi

theorem fsPhase_stage : (fsPhase c s).bindStage = s.bindStage := by
  rcases fsPhase_cases c s with ⟨-, e⟩ | ⟨-, -, e⟩ <;> rw [e]

/-- The induction over one dispatch (R94): the data phases need keep a property only outside a session. -/
theorem dispatch_keeps {P : State → Prop} (b : Bool) (h : P s) (ht : ∀ s, P s → P (tickPhase b s))
    (hb : ∀ s, P s → P (buttonPhase c s)) (hs : ∀ s, P s → P (bindPhase c s))
    (hr : ∀ s, s.bindStage = .idle → P s → P (rxPhase c s)) (hf : ∀ s, s.bindStage = .idle → P s → P (fsPhase c s))
    (hh : ∀ s, s.bindStage = .idle → P s → P (hopPhase c s)) (hl : ∀ s, P s → P (ledPhase c s)) :
    P (dispatch c b s) := by
  have h3 : P (bindPhase c (buttonPhase c (tickPhase b s))) := hs _ (hb _ (ht _ h))
  unfold dispatch
  apply hl
  split
  · have hi : (bindPhase c (buttonPhase c (tickPhase b s))).bindStage = .idle := by assumption
    have h4 := rxPhase_stage c _ hi
    exact hh _ ((fsPhase_stage c _).trans h4) (hf _ h4 (hr _ hi h3))
  · exact h3

/-- A dispatch outside a session that raises no bind request runs the data phases and the LED. -/
theorem dispatch_data (b : Bool) (hi : s.bindStage = .idle) (h : (tickPhase b s).bindRequest = false) :
    dispatch c b s = ledPhase c (dataPhases c (tickPhase b s)) := by
  have hi' : (tickPhase b s).bindStage = .idle := by rw [tickPhase_eq]; exact hi
  have e : bindPhase c (buttonPhase c (tickPhase b s)) = tickPhase b s := by
    rw [buttonPhase_idle c _ h, bindPhase_idle c _ hi']
  unfold dispatch
  simp only [e, hi', if_true]

theorem pulseNext_keeps {P : State → Prop} (k : Fin 4) (he : ∀ k, P (pulseEnter c k s)) (ho : ∀ k, P (pulseOff c k s)) :
    P (pulseNext c k s) := by
  unfold pulseNext
  split
  · exact he _
  · exact ho _

theorem trainStart_keeps {P : State → Prop} (he : P (pulseEnter c 0 s)) (h : P s) : P (trainStart c s) := by
  unfold trainStart
  split
  · exact he
  · exact h

theorem runAll_append (is js : List Instr) :
    runAll (is ++ js) s =
      (match runAll is s with
      | .next t => runAll js t
      | .fault r => .fault r
      | .refused r => .refused r) := by
  induction is generalizing s with
  | nil => rfl
  | cons i is ih =>
    simp only [List.cons_append, runAll]
    cases exec i s <;> simp [ih]

end Sys2Proof.Machine
end

