-- ==== Sys2Proof/Laws/PerInstr.lean ====
section
/-! SUPPORT. Per-operation facts about the syntax. EncodingLength: an operation that has an encoding has one of at least one
byte and at most `longestBytes` (spec/30_encoding.md R73, R75, spec/48_output_commands.md R150), so a word of the opcode table
always fits the bytes `wordBytes` lays out. -/

namespace Sys2Proof

/-- The encoding of an operation, if it has one, is neither empty nor longer than the longest row. -/
def Laws.EncodingLength.Statement (i : Instr) : Prop :=
  ∀ p bs, encode i = some (p, bs) → 1 ≤ bs.length ∧ bs.length ≤ longestBytes

theorem Laws.encodingLength_of {i : Instr} {p : Port} {bs : List Byte} (h : encode i = some (p, bs))
    (hl : 1 ≤ bs.length ∧ bs.length ≤ longestBytes) : Laws.EncodingLength.Statement i := by
  intro q cs e
  rw [h] at e
  cases e
  exact hl

theorem Laws.EncodingLength.reset : Laws.EncodingLength.Statement .reset :=
  Laws.encodingLength_of rfl (by simp [longestBytes])

theorem Laws.EncodingLength.tick (b : Bool) : Laws.EncodingLength.Statement (.tick b) :=
  Laws.encodingLength_of rfl (by simp [longestBytes])

theorem Laws.EncodingLength.rxf (f : Frame) : Laws.EncodingLength.Statement (.rxf f) :=
  Laws.encodingLength_of rfl (by simp [longestBytes])

theorem Laws.EncodingLength.rirq : Laws.EncodingLength.Statement .rirq :=
  Laws.encodingLength_of rfl (by simp [longestBytes])

theorem Laws.EncodingLength.hexp : Laws.EncodingLength.Statement .hexp :=
  Laws.encodingLength_of rfl (by simp [longestBytes])

theorem Laws.EncodingLength.pexp : Laws.EncodingLength.Statement .pexp :=
  Laws.encodingLength_of rfl (by simp [longestBytes])

theorem Laws.EncodingLength.tstart : Laws.EncodingLength.Statement .tstart :=
  Laws.encodingLength_of rfl (by simp [longestBytes])

theorem Laws.EncodingLength.bind0Ch3 (f : Frame) : Laws.EncodingLength.Statement (.bind0Ch3 f) :=
  Laws.encodingLength_of rfl (by simp [longestBytes])

theorem Laws.EncodingLength.bind0Ch4 (f : Frame) : Laws.EncodingLength.Statement (.bind0Ch4 f) :=
  Laws.encodingLength_of rfl (by simp [longestBytes])

theorem Laws.EncodingLength.bindBlk1 (f : Frame) : Laws.EncodingLength.Statement (.bindBlk1 f) :=
  Laws.encodingLength_of rfl (by simp [longestBytes])

theorem Laws.EncodingLength.bindBlk2 (f : Frame) : Laws.EncodingLength.Statement (.bindBlk2 f) :=
  Laws.encodingLength_of rfl (by simp [longestBytes])

theorem Laws.EncodingLength.bindBlk3 (f : Frame) : Laws.EncodingLength.Statement (.bindBlk3 f) :=
  Laws.encodingLength_of rfl (by simp [longestBytes])

theorem Laws.EncodingLength.bindReject (f : Frame) : Laws.EncodingLength.Statement (.bindReject f) :=
  Laws.encodingLength_of rfl (by simp [longestBytes])

theorem Laws.EncodingLength.dataStick (f : Frame) : Laws.EncodingLength.Statement (.dataStick f) :=
  Laws.encodingLength_of rfl (by simp [longestBytes])

theorem Laws.EncodingLength.dataFsEn (f : Frame) : Laws.EncodingLength.Statement (.dataFsEn f) :=
  Laws.encodingLength_of rfl (by simp [longestBytes])

theorem Laws.EncodingLength.dataFsDis (f : Frame) : Laws.EncodingLength.Statement (.dataFsDis f) :=
  Laws.encodingLength_of rfl (by simp [longestBytes])

theorem Laws.EncodingLength.dataUnknown (f : Frame) : Laws.EncodingLength.Statement (.dataUnknown f) :=
  Laws.encodingLength_of rfl (by simp [longestBytes])

theorem Laws.EncodingLength.dispTick (b : Bool) : Laws.EncodingLength.Statement (.dispTick b) :=
  Laws.encodingLength_of rfl (by simp [longestBytes])

theorem Laws.EncodingLength.dispButton : Laws.EncodingLength.Statement .dispButton :=
  Laws.encodingLength_of rfl (by simp [longestBytes])

theorem Laws.EncodingLength.dispBind : Laws.EncodingLength.Statement .dispBind :=
  Laws.encodingLength_of rfl (by simp [longestBytes])

theorem Laws.EncodingLength.dispRx : Laws.EncodingLength.Statement .dispRx :=
  Laws.encodingLength_of rfl (by simp [longestBytes])

theorem Laws.EncodingLength.dispFs : Laws.EncodingLength.Statement .dispFs :=
  Laws.encodingLength_of rfl (by simp [longestBytes])

theorem Laws.EncodingLength.dispHop : Laws.EncodingLength.Statement .dispHop :=
  Laws.encodingLength_of rfl (by simp [longestBytes])

theorem Laws.EncodingLength.dispLed : Laws.EncodingLength.Statement .dispLed :=
  Laws.encodingLength_of rfl (by simp [longestBytes])

theorem Laws.EncodingLength.bindEnter : Laws.EncodingLength.Statement .bindEnter :=
  fun _ _ e => by cases e

theorem Laws.EncodingLength.armBeacon : Laws.EncodingLength.Statement .armBeacon :=
  fun _ _ e => by cases e

theorem Laws.EncodingLength.bindRestart : Laws.EncodingLength.Statement .bindRestart :=
  fun _ _ e => by cases e

theorem Laws.EncodingLength.bindCommit : Laws.EncodingLength.Statement .bindCommit :=
  fun _ _ e => by cases e

theorem Laws.EncodingLength.bindParse (r : BindRecord) : Laws.EncodingLength.Statement (.bindParse r) :=
  fun _ _ e => by cases e

theorem Laws.EncodingLength.rearm : Laws.EncodingLength.Statement .rearm :=
  fun _ _ e => by cases e

theorem Laws.EncodingLength.bindTimeout : Laws.EncodingLength.Statement .bindTimeout :=
  fun _ _ e => by cases e

theorem Laws.EncodingLength.hopResync : Laws.EncodingLength.Statement .hopResync :=
  fun _ _ e => by cases e

theorem Laws.EncodingLength.hopValid : Laws.EncodingLength.Statement .hopValid :=
  fun _ _ e => by cases e

theorem Laws.EncodingLength.publish (vals : ChannelSet) : Laws.EncodingLength.Statement (.publish vals) :=
  fun _ _ e => by cases e

theorem Laws.EncodingLength.pulseEnter (k : Fin 4) : Laws.EncodingLength.Statement (.pulseEnter k) :=
  fun _ _ e => by cases e

theorem Laws.EncodingLength.pulseOff (k : Fin 4) : Laws.EncodingLength.Statement (.pulseOff k) :=
  fun _ _ e => by cases e

theorem Laws.EncodingLength.boot : Laws.EncodingLength.Statement .boot :=
  fun _ _ e => by cases e

theorem Laws.EncodingLength.radioInit : Laws.EncodingLength.Statement .radioInit :=
  Laws.encodingLength_of rfl (by simp [longestBytes, commandBytes])

theorem Laws.EncodingLength.ce (b : Bool) : Laws.EncodingLength.Statement (.ce b) :=
  Laws.encodingLength_of rfl (by simp [longestBytes, commandBytes])

theorem Laws.EncodingLength.setAddr (a : Address) : Laws.EncodingLength.Statement (.setAddr a) :=
  Laws.encodingLength_of rfl (by simp [longestBytes, commandBytes])

theorem Laws.EncodingLength.setChannel (ch : Byte) : Laws.EncodingLength.Statement (.setChannel ch) :=
  Laws.encodingLength_of rfl (by simp [longestBytes, commandBytes])

theorem Laws.EncodingLength.flushRx : Laws.EncodingLength.Statement .flushRx :=
  Laws.encodingLength_of rfl (by simp [longestBytes, commandBytes])

theorem Laws.EncodingLength.clearIrq : Laws.EncodingLength.Statement .clearIrq :=
  Laws.encodingLength_of rfl (by simp [longestBytes, commandBytes])

theorem Laws.EncodingLength.hopTimerStart (iv : HopInterval) : Laws.EncodingLength.Statement (.hopTimerStart iv) :=
  Laws.encodingLength_of rfl (by simp [longestBytes, commandBytes])

theorem Laws.EncodingLength.hopTimerStop : Laws.EncodingLength.Statement .hopTimerStop :=
  Laws.encodingLength_of rfl (by simp [longestBytes, commandBytes])

theorem Laws.EncodingLength.nvSave (r : BindRecord) : Laws.EncodingLength.Statement (.nvSave r) :=
  Laws.encodingLength_of rfl (by simp [longestBytes, commandBytes])

theorem Laws.EncodingLength.ptimerStop : Laws.EncodingLength.Statement .ptimerStop :=
  Laws.encodingLength_of rfl (by simp [longestBytes, commandBytes])

theorem Laws.EncodingLength.ptimerLoad (v : U16) : Laws.EncodingLength.Statement (.ptimerLoad v) :=
  Laws.encodingLength_of rfl (by simp [longestBytes, commandBytes])

theorem Laws.EncodingLength.ptimerStart : Laws.EncodingLength.Statement .ptimerStart :=
  Laws.encodingLength_of rfl (by simp [longestBytes, commandBytes])

theorem Laws.EncodingLength.cond (code : BitVec 4) : Laws.EncodingLength.Statement (.cond code) :=
  Laws.encodingLength_of rfl (by simp [longestBytes])

end Sys2Proof
end

