-- ==== Sys2Proof/Tests/Slice0.lean ====
section
/-! SUPPORT. The model's own tests. Expected values are those of spec/95_test_vectors.md (named V-… there), under its test
configuration T0, or worked out by hand from the rule a test names. -/

namespace Sys2Proof.Tests

open Sys2Proof.Machine

/-! ### Test data (spec/95_test_vectors.md T0) -/

/-- T0. -/
def t0 : Cfg :=
  { tickPeriodOver := 0
    bindTimeoutOver := 4
    fsTimeoutOver := 2
    blinkBindingOver := 0
    blinkFailsafeOver := 0
    blinkIdleOver := 1
    hopFirstOver := 0
    hopSteadyOver := 0
    stickIdCh3 := 0x11#8
    stickIdCh4 := 0x33#8
    failsafeIdOverCh3 := 16
    failsafeIdOverCh4 := 16
    fsEnableMarker := 0x5A#8
    centerCh3 := 0x0BB8#16
    centerCh4 := 0x0BB8#16
    beaconChannel := 0x4C#8
    beaconAddr := #v[0xE7, 0xE7, 0xE7, 0xE7, 0xE7]
    radioCrcMode := 0
    radioDataRate := 0
    rxQueueDepthOver := 2
    hasAuxPin := true
    rebindPolicy := .ignore
    restartClearsHopFlag := false
    pulseTimeUnitOver := 0
    counterWidthOver := 0 }

/-- REC3, and REC4 with the identifier 0xAB. -/
def rec3 : BindRecord :=
  #v[1, 2, 3, 4, 5, 0x0A, 0x0B, 0x0C, 0x0D, 0x0E, 0x0F, 0x10, 0x11, 0x12, 0x13, 0x14, 0x15, 0x16, 0x17, 0x18, 0x19, 0x1A, 0x1B,
    0x1C, 0x1D, 0xAA]

def rec4 : BindRecord := rec3.set 25 0xAB#8

/-- Listening on REC3's link, with T0's draw of the PulseBuffer. -/
def listening : State :=
  { State.reset with
    modelAddr := #v[1, 2, 3, 4, 5]
    hopSeq := #v[0x0A, 0x0B, 0x0C, 0x0D, 0x0E, 0x0F, 0x10, 0x11, 0x12, 0x13, 0x14, 0x15, 0x16, 0x17, 0x18, 0x19, 0x1A, 0x1B, 0x1C,
      0x1D]
    fsValues := #v[9, 9, 9, 9]
    pbuf := #v[#v[0, 0, 0, 5], #v[0, 0, 0, 0]]
    psel := 0
    radioAddr := #v[1, 2, 3, 4, 5]
    radioChannel := 0x0A#8
    nv := some rec3
    trace := [] }

/-- In a session that waits for block s + 1, with V-F1's checksum. -/
def inSession (stage : BindStage) : State :=
  { listening with
    bindStage := stage, bindCksum := 0x000F#16, bindTimer := 4, status := .binding
    radioAddr := t0.beaconAddr, radioChannel := t0.beaconChannel }

/-- V-F1 and V-B3 to V-B4a, V-F5 and V-F7. -/
def marker : Frame := #v[0xFF, 0xAA, 0x55, 1, 2, 3, 4, 5, 0, 0]
def block1 : Frame := #v[0x0F, 0, 0, 0x0A, 0x0B, 0x0C, 0x0D, 0x0E, 0x0F, 0x10]
def block2 : Frame := #v[0x0F, 0, 1, 0x11, 0x12, 0x13, 0x14, 0x15, 0x16, 0x17]
def block3 : Frame := #v[0x0F, 0, 2, 0x18, 0x19, 0x1A, 0x1B, 0x1C, 0x1D, 0x99]
def stick4 : Frame := #v[0xDC, 0x05, 0x78, 0x05, 0x14, 0x05, 0xB0, 0x33, 0x00, 0x04]
def stick3 : Frame := #v[0xDC, 0x05, 0x78, 0x05, 0x14, 0x05, 0xB0, 0x11, 0x77, 0x04]
def config3 : Frame := #v[0xE8, 0x03, 0xD0, 0x07, 0xB8, 0x0B, 0x00, 0x22, 0x5A, 0x00]

def dataMode (v : Variant) : FrameMode := ⟨.idle, 0#16, v⟩
def bindMode (stage : BindStage) : FrameMode := ⟨stage, 0x000F#16, .ch3⟩

/-! ### WellFormed refuses each ill-formed term -/

theorem test_wf_bind0Ch3_refuses_ch4_pair :
    WellFormed t0 (bindMode .awaitAddr) (.bind0Ch3 #v[0xFF, 0xAB, 0x56, 1, 2, 3, 4, 5, 0, 0]) = false := by decide
theorem test_wf_bind0Ch4_refuses_mixed_pair :
    WellFormed t0 (bindMode .awaitAddr) (.bind0Ch4 #v[0xFF, 0xAB, 0x55, 1, 2, 3, 4, 5, 0, 0]) = false := by decide
theorem test_wf_bind0Ch3_refuses_other_stage : WellFormed t0 (bindMode .awaitHop1) (.bind0Ch3 marker) = false := by decide
theorem test_wf_blk1_refuses_wrong_checksum :
    WellFormed t0 (bindMode .awaitHop1) (.bindBlk1 #v[0x0F, 1, 0, 0, 0, 0, 0, 0, 0, 0]) = false := by decide
theorem test_wf_blk2_refuses_repeated_block1 : WellFormed t0 (bindMode .awaitHop2) (.bindBlk2 block1) = false := by decide
theorem test_wf_blk3_refuses_block2 : WellFormed t0 (bindMode .awaitHop3) (.bindBlk3 block2) = false := by decide
theorem test_wf_reject_refuses_accepted_frame : WellFormed t0 (bindMode .awaitHop1) (.bindReject block1) = false := by decide
theorem test_wf_reject_refuses_idle : WellFormed t0 (dataMode .ch3) (.bindReject block1) = false := by decide
theorem test_wf_stick_refuses_other_variant : WellFormed t0 (dataMode .ch4) (.dataStick stick3) = false := by decide
theorem test_wf_fsEn_refuses_other_marker :
    WellFormed t0 (dataMode .ch3) (.dataFsEn #v[0, 0, 0, 0, 0, 0, 0, 0x22, 0x5B, 0]) = false := by decide
theorem test_wf_fsDis_refuses_marker : WellFormed t0 (dataMode .ch3) (.dataFsDis config3) = false := by decide
theorem test_wf_unknown_refuses_stick : WellFormed t0 (dataMode .ch3) (.dataUnknown stick3) = false := by decide
theorem test_wf_refuses_other_stage :
    WellFormed t0 (bindMode .awaitHop1) (.bind0Ch4 #v[0xFF, 0xAB, 0x56, 1, 2, 3, 4, 5, 0, 0]) = false ∧
    WellFormed t0 (bindMode .awaitHop2) (.bindBlk1 block1) = false ∧ WellFormed t0 (bindMode .awaitHop3) (.bindBlk2 block2) = false ∧
    WellFormed t0 (bindMode .awaitHop1) (.bindBlk3 block3) = false ∧ WellFormed t0 (bindMode .awaitAddr) (.dataStick stick3) = false ∧
    WellFormed t0 (bindMode .awaitAddr) (.dataFsEn config3) = false ∧
    WellFormed t0 (bindMode .awaitAddr) (.dataFsDis #v[0, 0, 0, 0, 0, 0, 0, 0x22, 0, 0]) = false ∧
    WellFormed t0 (bindMode .awaitHop1) (.dataUnknown marker) = false := by decide
theorem test_wf_refuses_other_identifier : WellFormed t0 (dataMode .ch3) (.dataFsEn stick3) = false ∧
    WellFormed t0 (dataMode .ch3) (.dataFsDis stick3) = false ∧ WellFormed t0 (dataMode .ch3) (.dataUnknown config3) = false := by
  decide
theorem test_wf_cond_refuses_0 : WellFormed t0 (dataMode .ch3) (.cond 0#4) = false := by decide
theorem test_wf_cond_refuses_7 : WellFormed t0 (dataMode .ch3) (.cond 7#4) = false := by decide

/-! ### Decoding of words written out from the spec -/

/-- R30's codes. -/
theorem test_variant_codes : Variant.ch3.code = 0 ∧ Variant.ch4.code = 1 := ⟨rfl, rfl⟩

/-- V-E1 to V-E8. -/
theorem test_decode_reset : decodeEvent [0b0000_0000#8] = .ok (.reset, []) := by rfl
theorem test_decode_tick : decodeEvent [0b0001_0000#8] = .ok (.tick false, []) ∧
    decodeEvent [0b0001_0001#8, 0x50#8] = .ok (.tick true, [0x50#8]) := ⟨rfl, rfl⟩
theorem test_decode_rxf :
    decodeEvent [0b0010_0000#8, 1, 2, 3, 4, 5, 6, 7, 8, 9, 0x0A, 0x30] =
      .ok (.rxf #v[1, 2, 3, 4, 5, 6, 7, 8, 9, 0x0A], [0x30]) := by rfl
theorem test_decode_interrupts : decodeEvent [0b0011_0000#8] = .ok (.rirq, []) ∧
    decodeEvent [0b0100_0000#8] = .ok (.hexp, []) ∧ decodeEvent [0b0101_0000#8] = .ok (.pexp, []) ∧
    decodeEvent [0b0110_0000#8] = .ok (.tstart, []) := ⟨rfl, rfl, rfl, rfl⟩
/-- V-E9 to V-E11, and an RXF cut short. -/
theorem test_decode_refuses_events : decodeEvent [0x12#8] = .error (.reservedOperand 0x12#8) ∧
    decodeEvent [0x01#8] = .error (.reservedOperand 0x01#8) ∧ decodeEvent [0x70#8] = .error (.reservedEvent 0x70#8) ∧
    decodeEvent [0xFF#8] = .error (.reservedEvent 0xFF#8) ∧ decodeEvent [0x20#8, 1, 2] = .error .truncated :=
  ⟨rfl, rfl, rfl, rfl, rfl⟩
/-- V-F1 to V-F4a. -/
theorem test_decode_markers :
    decodeFrame t0 (bindMode .awaitAddr) #v[0b11111111, 0b10101010, 0b01010101, 1, 2, 3, 4, 5, 7, 7] = .bind0Ch3 ∧
    decodeFrame t0 (bindMode .awaitAddr) #v[0b11111111, 0b10101011, 0b01010110, 255, 255, 255, 255, 255, 7, 7] = .bind0Ch4 ∧
    decodeFrame t0 (bindMode .awaitAddr) #v[0xFF, 0xAB, 0x55, 1, 2, 3, 4, 5, 0, 0] = .bindReject ∧
    decodeFrame t0 (bindMode .awaitAddr) #v[0xFE, 0xAA, 0x55, 1, 2, 3, 4, 5, 0, 0] = .bindReject ∧
    decodeFrame t0 (bindMode .awaitHop1) marker = .bindReject := by decide
/-- V-B3 to V-B4a, V-B5, V-B6. -/
theorem test_decode_blocks :
    decodeFrame t0 (bindMode .awaitHop1) #v[0b00001111, 0b00000000, 0b00000000, 0x0A, 0, 0, 0, 0, 0, 0] = .bindBlk1 ∧
    decodeFrame t0 (bindMode .awaitHop2) #v[0b00001111, 0b00000000, 0b00000001, 0x11, 0, 0, 0, 0, 0, 0] = .bindBlk2 ∧
    decodeFrame t0 (bindMode .awaitHop3) #v[0b00001111, 0b00000000, 0b00000010, 0x18, 0, 0, 0, 0, 0, 0] = .bindBlk3 ∧
    decodeFrame t0 (bindMode .awaitHop1) #v[0x0F, 0x01, 0, 0, 0, 0, 0, 0, 0, 0] = .bindReject ∧
    decodeFrame t0 (bindMode .awaitHop2) block1 = .bindReject := by decide
/-- V-F5 to V-F10. -/
theorem test_decode_data :
    decodeFrame t0 (dataMode .ch4) stick4 = .dataStick ∧ decodeFrame t0 (dataMode .ch3) stick3 = .dataStick ∧
    decodeFrame t0 (dataMode .ch3) config3 = .dataFsEn ∧
    decodeFrame t0 (dataMode .ch3) #v[0xE8, 0x03, 0xD0, 0x07, 0xB8, 0x0B, 0x00, 0x22, 0x5B, 0x00] = .dataFsDis ∧
    decodeFrame t0 (dataMode .ch4) #v[1, 0, 2, 0, 3, 0, 4, 0x11, 0, 0] = .dataUnknown ∧
    decodeFrame t0 (dataMode .ch3) marker = .dataUnknown := by decide
/-- The frame space gives the operation with its frame and the bytes after it. -/
theorem test_decode_frame_bytes :
    decode t0 .frame (bindMode .awaitAddr) [0xFF, 0xAA, 0x55, 1, 2, 3, 4, 5, 0, 0, 0x30] = .ok (.bind0Ch3 marker, [0x30]) := by
  rfl
/-- The phases 1 to 7 of R94. -/
theorem test_decode_phases :
    decodePhase true [1] = .ok (.dispTick true, []) ∧ decodePhase true [2] = .ok (.dispButton, []) ∧
    decodePhase true [3] = .ok (.dispBind, []) ∧ decodePhase true [4] = .ok (.dispRx, []) ∧
    decodePhase true [5] = .ok (.dispFs, []) ∧ decodePhase true [6] = .ok (.dispHop, []) ∧
    decodePhase true [7] = .ok (.dispLed, []) ∧ decodePhase true [8] = .error (.reservedPhase 8) :=
  ⟨rfl, rfl, rfl, rfl, rfl, rfl, rfl, rfl⟩
/-- V-C1 to V-C6. -/
theorem test_decode_radio_commands :
    decodeCommand [0x10] = .ok (.radioInit, []) ∧ decodeCommand [0x11, 0x00] = .ok (.ce false, []) ∧
    decodeCommand [0x11, 0x01] = .ok (.ce true, []) ∧
    decodeCommand [0x12, 1, 2, 3, 4, 5] = .ok (.setAddr #v[1, 2, 3, 4, 5], []) ∧
    decodeCommand [0x13, 0x2A] = .ok (.setChannel 0x2A, []) ∧ decodeCommand [0x14] = .ok (.flushRx, []) ∧
    decodeCommand [0x15] = .ok (.clearIrq, []) := ⟨rfl, rfl, rfl, rfl, rfl, rfl, rfl⟩
theorem test_decode_timer_commands :
    decodeCommand [0x20, 0x00] = .ok (.hopTimerStart .first, []) ∧
    decodeCommand [0x20, 0x01] = .ok (.hopTimerStart .steady, []) ∧ decodeCommand [0x21] = .ok (.hopTimerStop, []) ∧
    decodeCommand [0x40] = .ok (.ptimerStop, []) ∧ decodeCommand [0x41, 0xDC, 0x05] = .ok (.ptimerLoad 0x05DC, []) ∧
    decodeCommand [0x42] = .ok (.ptimerStart, []) ∧ decodeCommand [0x11, 0x02] = .error (.badArgument 2) ∧
    decodeCommand [0x22] = .error (.reservedCommand 0x22) := ⟨rfl, rfl, rfl, rfl, rfl, rfl, rfl, rfl⟩
/-- V-C7, V-C9. -/
theorem test_decode_nvSave : decodeCommand (0x30 :: rec3.toList) = .ok (.nvSave rec3, []) := by rfl
theorem test_decode_cond : decodeCondition [0b1111_0100#8] = .ok (.cond 4#4, []) ∧
    decodeCondition [0x24#8] = .error (.notACondition 0x24#8) := ⟨rfl, rfl⟩
/-- The trace entries' bytes (V-C3, V-C8, V-C9). -/
theorem test_trace_bytes :
    traceEntryBytes (.cmd (.setAddr #v[1, 2, 3, 4, 5])) = [0x12, 1, 2, 3, 4, 5] ∧
    traceEntryBytes (.cmd (.ptimerLoad 0x05DC#16)) = [0x41, 0xDC, 0x05] ∧
    traceEntryBytes (.cond .failsafeEnter .nothing) = [0xF4] := by decide

/-! ### Meanings, one step each, against the vectors of spec/95_test_vectors.md -/

/-- V-B1, in short: the trace of an entry and what it sets. -/
theorem test_bindEnter : (bindEnter t0 listening).trace.map traceEntryBytes =
      [[0x21], [0x11, 0], [0x12, 0xE7, 0xE7, 0xE7, 0xE7, 0xE7], [0x13, 0x4C], [0x14], [0x15], [0x11, 1]] ∧
    (bindEnter t0 listening).bindTimer = 5 ∧ (bindEnter t0 listening).status = .binding := by decide
/-- V-B2. -/
theorem test_bindMarker : (bindMarker0 marker (inSession .awaitAddr)).bindRec =
      #v[1, 2, 3, 4, 5, 0, 0, 0, 0, 0, 0, 0, 0, 0, 0, 0, 0, 0, 0, 0, 0, 0, 0, 0, 0, 0xAA] ∧
    (bindMarker0 marker (inSession .awaitAddr)).bindCksum = 0x000F#16 := by decide
/-- V-F2's checksum, the largest. -/
theorem test_addressSum_max : addressSum #v[0xFF, 0xAB, 0x56, 255, 255, 255, 255, 255, 0, 0] = 0x04FB#16 := by decide
/-- V-B3. -/
theorem test_bindBlk1 : (bindBlock1 block1 (inSession .awaitHop1)).bindRec =
      #v[0, 0, 0, 0, 0, 0x0A, 0x0B, 0x0C, 0x0D, 0x0E, 0x0F, 0x10, 0, 0, 0, 0, 0, 0, 0, 0, 0, 0, 0, 0, 0, 0] := by decide
/-- V-B4. -/
theorem test_bindBlk2 : (bindBlock2 block2 (inSession .awaitHop2)).bindRec =
      #v[0, 0, 0, 0, 0, 0, 0, 0, 0, 0, 0, 0, 0x11, 0x12, 0x13, 0x14, 0x15, 0x16, 0x17, 0, 0, 0, 0, 0, 0, 0] := by decide
/-- V-B4a: byte 9 (0x99) is not read, and the block commits. -/
theorem test_bindBlk3 :
    let t := bindBlock3 t0 block3 { inSession .awaitHop3 with bindRec := rec3.set 19 0 }
    t.nv = some rec3 ∧ t.status = .idle ∧ t.radioAddr = #v[1, 2, 3, 4, 5] ∧ t.radioChannel = 0x0A#8 := by decide
/-- V-B6. -/
theorem test_bindReject : handleFrame t0 block1 (inSession .awaitHop2) = bindRejectFrame block1 (inSession .awaitHop2) := by rfl
/-- V-B7. -/
theorem test_bindTimeout : (bindTimeout t0 (inSession .awaitAddr)).trace.map traceEntryBytes =
    [[0xF2], [0x11, 0], [0x12, 1, 2, 3, 4, 5], [0x21], [0x13, 0x0A], [0x14], [0x15], [0x11, 1]] := by decide
/-- V-B8: the timeout, not the commit. -/
theorem test_dispBind_timeout_wins :
    let s := { inSession .awaitHop3 with bindTimer := 0, radioFlag := true, rxq := [block3] }
    (bindPhase t0 s).rxq = [] ∧ (bindPhase t0 s).bindStage = .idle ∧ (bindPhase t0 s).bindRec = s.bindRec := by decide
/-- P1's d4: an early block is rejected and the right one, in the same drain, is taken. -/
theorem test_dispBind_recovers :
    let t := bindPhase t0 { inSession .awaitHop1 with radioFlag := true, rxq := [block2, block1] }
    t.bindStage = .awaitHop2 ∧ t.trace.map traceEntryBytes = [[0xF1], [0x15]] := by decide
/-- V-B9. -/
theorem test_dispButton_ignored :
    buttonPhase t0 { inSession .awaitHop1 with bindRequest := true } = inSession .awaitHop1 := by rfl
/-- R102, under the other policy of R10. -/
theorem test_bindRestart :
    (buttonPhase { t0 with rebindPolicy := .restart } { inSession .awaitHop2 with bindRequest := true, bindTimer := 1 }).bindStage =
      .awaitAddr := by decide
/-- V-B11, and REC4. -/
theorem test_bindParse : (bindParse (rec3.set 25 0x00#8) listening).variant = .ch3 ∧
    (bindParse rec4 listening).variant = .ch4 ∧ (bindParse rec4 State.reset).hopSeq = listening.hopSeq := by decide

/-- V-H1. -/
theorem test_hexp : (hopExpire { listening with hopTimerRunning := true }).hopFlag = true ∧
    (hopExpire { listening with hopTimerRunning := true }).hopTimerInterval = .steady := by decide
/-- V-H3. -/
theorem test_dispHop_wraps :
    let t := hopPhase t0 { listening with hopFlag := true, hopIndex := 19#5, missCount := 3#5 }
    t.hopIndex = 0#5 ∧ t.missCount = 4#5 ∧ t.trace.map traceEntryBytes = [[0x13, 0x0A]] := by decide
/-- V-H4 and V-H5. -/
theorem test_dispHop_threshold :
    (hopPhase t0 { listening with hopFlag := true, missCount := 14#5 }).missCount = 15#5 ∧
    (hopPhase t0 { listening with hopFlag := true, missCount := 15#5, hopIndex := 18#5 }).trace.map traceEntryBytes =
      [[0x21], [0x14], [0x13, 0x0A], [0xF3]] := by decide
/-- V-H6. -/
theorem test_hopValid :
    let t := hopValid t0 { listening with missCount := 9#5, hopIndex := 4#5, hopFlag := true }
    t.missCount = 0#5 ∧ t.hopIndex = 4#5 ∧ t.hopFlag = true ∧ t.trace.map traceEntryBytes = [[0x21], [0x20, 0]] := by decide

/-- V-R1. -/
theorem test_dispRx_stick :
    let t := rxPhase t0 { listening with radioFlag := true, rxq := [#v[1, 0, 1, 0, 1, 0, 0, 0x11, 0, 0]] }
    t.pbuf[1] = #v[1, 1, 1, 0] ∧ t.psel = 1 ∧ t.fsTimer = 3 ∧ t.trace.map traceEntryBytes = [[0x15], [0x21], [0x20, 0]] := by
  decide
/-- V-R3: the last frame only. -/
theorem test_dispRx_last :
    let t := rxPhase t0 { listening with radioFlag := true, rxq := [stick3, #v[2, 0, 2, 0, 2, 0, 0, 0x99, 0, 0]] }
    t.pbuf = listening.pbuf ∧ t.status = .idle ∧ t.trace.map traceEntryBytes = [[0x15], [0xF6]] := by decide
/-- V-R2's lost fourth frame, and V-R6. -/
theorem test_rxf :
    radioReceive t0 stick3 { listening with rxq := [marker, marker, marker] } = { listening with rxq := [marker, marker, marker] } ∧
    radioReceive t0 stick3 { listening with rxq := [marker, block1] } = { listening with rxq := [marker, block1, stick3] } ∧
    radioReceive t0 stick3 { listening with radioCe := false } = { listening with radioCe := false } := ⟨rfl, rfl, rfl⟩
/-- V-F5 in CH4: channel 3 from the bytes 9 and 6. -/
theorem test_dataStick_ch4 :
    (stickFrame t0 stick4 { listening with variant := .ch4 }).pbuf[1] = #v[0x05DC, 0x0578, 0x0514, 0x04B0] := by decide
/-- V-R9, and V-R7's four values in CH4. -/
theorem test_dataFsEn : (failsafeEnableFrame t0 config3 listening).fsValues = #v[0x03E8, 0x07D0, 0x0BB8, 9] ∧
    (failsafeEnableFrame t0 #v[1, 0, 2, 0, 3, 0, 4, 0x44, 0x5A, 0] { listening with variant := .ch4 }).fsValues =
      #v[1, 2, 3, 4] := by decide
/-- V-R8. -/
theorem test_dataFsDis : (failsafeDisableFrame t0 { listening with fsEnabled := true }).fsValues =
    #v[0x0BB8, 0x0BB8, 0x0BB8, 0x0BB8] := by decide
/-- V-H8. -/
theorem test_dataUnknown : handleFrame t0 marker { listening with missCount := 4#5 } =
    { listening with missCount := 4#5, trace := [.cond .frameUnknown (.frame marker)] } := by rfl
/-- V-R10. -/
theorem test_publish :
    let t := writePulseBuffer #v[7, 8, 9, 6] { listening with psel := 1 }
    t.pbuf[0] = #v[7, 8, 9, 5] ∧ t.psel = 0 := by decide

/-- V-S1 and V-S2. -/
theorem test_dispFs :
    fsPhase t0 listening = listening ∧
    (fsPhase t0 { listening with everReceived := true, status := .receiving, psel := 1 }).pbuf[0] =
      #v[0x0BB8, 0x0BB8, 0x0BB8, 5] ∧
    (fsPhase t0 { listening with everReceived := true, status := .receiving }).trace.map traceEntryBytes = [[0xF4]] :=
  ⟨rfl, by decide, by decide⟩
/-- V-S3 and V-S4. -/
theorem test_dispFs_again :
    let t := fsPhase t0 { listening with
      everReceived := true, status := .failsafe, fsEnabled := true, fsValues := #v[0x03E8, 0x07D0, 0x0BB8, 9] }
    t.trace = [] ∧ t.psel = 1 ∧ t.pbuf[1] = #v[0x03E8, 0x07D0, 0x0BB8, 0] := by decide

/-- V-P1's first step, and V-P2's. -/
theorem test_tstart :
    let s := { listening with psel := 1, pbuf := #v[#v[0, 0, 0, 0], #v[0x05DC, 0x0578, 0x0514, 0x04B0]] }
    (trainStart t0 s).pin = #v[true, false, false, true] ∧
    (trainStart t0 { s with variant := .ch4 }).pin = #v[true, false, false, false] ∧
    (trainStart t0 s).trace.map traceEntryBytes = [[0x40], [0x41, 0xDC, 0x05], [0x42]] := by decide
/-- V-P3. -/
theorem test_pulseEnter_no_aux :
    (pulseEnter { t0 with hasAuxPin := false } 0 listening).pin = #v[true, false, false, false] := by decide
/-- V-P1's and V-P2's third step and V-P7. -/
theorem test_pexp :
    (pulseNext t0 1 { listening with pin := #v[false, true, false, true] }).pin = #v[false, false, true, true] ∧
    (pulseNext t0 2 { listening with pin := #v[false, false, true, true] }).pin = #v[false, false, false, false] ∧
    (pulseNext t0 2 { listening with variant := .ch4, pin := #v[false, false, true, true] }).pin =
      #v[false, false, false, true] := by decide
/-- V-P1's last step. -/
theorem test_pulseOff :
    let t := pulseOff t0 3 { listening with variant := .ch4, pin := #v[false, false, false, true], ptimerRunning := true }
    t.pin = #v[false, false, false, false] ∧ t.pstate = .off ∧ t.ptimerRunning = false := by decide

/-- V-L1 and V-L3. -/
theorem test_dispLed : (ledPhase t0 listening).blinkTimer = 3 ∧ (ledPhase t0 listening).led = true ∧
    (ledPhase t0 { listening with status := .receiving, ledLast := some .idle, blinkTimer := 2 }).blinkTimer = 0 := by decide
/-- V-L4's second step, and V-L2's. -/
theorem test_dispLed_blinks :
    (ledPhase t0 { inSession .awaitAddr with ledLast := some .binding, led := true, blinkTimer := 0 }).led = false ∧
    (ledPhase t0 { listening with ledLast := some .idle, led := true, blinkTimer := 2 }).led = true := by decide

/-- V-T1. -/
theorem test_dispTick_counts :
    let t := tickPhase false { listening with fsTimer := 1, blinkTimer := 7 }
    t.fsTimer = 0 ∧ t.bindTimer = 0 ∧ t.blinkTimer = 6 := by decide
/-- V-T2's second sample, V-T3's second, V-T4's third. -/
theorem test_dispTick_edge :
    (tickPhase true { listening with btnPrev := true }).bindRequest = true ∧
    (tickPhase true listening).bindRequest = false ∧
    (tickPhase true { listening with btnPrev := true, btnDeb := true }).bindRequest = false := by decide

/-- V-H7, one dispatch: the frame first, then the pending hop. -/
theorem test_tick_pending_hop :
    let s := { listening with radioFlag := true, hopFlag := true, hopTimerRunning := true, rxq := [stick3], bindTimer := 0 }
    (dispatch t0 false s).trace.map traceEntryBytes = [[0x15], [0x21], [0x20, 0], [0x13, 0x0B]] := by decide
/-- P4's d8: timeout, then the failsafe phase, and the LED sees the last status. -/
theorem test_tick_timeout_failsafe :
    let t := dispatch t0 false
      { inSession .awaitAddr with bindTimer := 1, bindSavedStatus := .receiving, everReceived := true, ledLast := some .binding }
    t.trace.map traceEntryBytes =
      [[0xF2], [0x11, 0], [0x12, 1, 2, 3, 4, 5], [0x21], [0x13, 0x0A], [0x14], [0x15], [0x11, 1], [0xF4]] ∧
    t.blinkTimer = 2 ∧ t.status = .failsafe := by decide

/-- V-I2. -/
theorem test_boot :
    let t := bootBlock t0 { listening with nv := some rec4, modelAddr := Vector.replicate 5 0 }
    t.variant = .ch4 ∧ t.fsValues = #v[0x0BB8, 0x0BB8, 0x0BB8, 0x0BB8] ∧ t.trace.map traceEntryBytes =
      [[0x10], [0x11, 0], [0x12, 1, 2, 3, 4, 5], [0x21], [0x13, 0x0A], [0x14], [0x15], [0x11, 1]] := by decide
/-- V-I1 and V-I3. -/
theorem test_reset :
    (resetBlock t0 #v[#v[0, 0, 0, 0], #v[0, 0, 0, 0]] 0 { listening with nv := none }).trace.map traceEntryBytes =
      [[0xF5], [0x10], [0x11, 0], [0x12, 0, 0, 0, 0, 0], [0x21], [0x13, 0], [0x14], [0x15], [0x11, 1]] ∧
    (resetBlock t0 #v[#v[0, 0, 0, 0], #v[0, 0, 0, 0]] 0 { inSession .awaitHop2 with rxq := [marker] }).bindStage = .idle := by
  decide
/-- The machine's reset state is what RESET with no record gives (V-I1). -/
theorem test_reset_state : State.reset.trace.map traceEntryBytes =
    [[0xF5], [0x10], [0x11, 0], [0x12, 0, 0, 0, 0, 0], [0x21], [0x13, 0], [0x14], [0x15], [0x11, 1]] := by decide
/-- The input event sequence is read a whole event at a time (R73), and the next word is an event again. -/
theorem test_step_rirq : step { listening with input := [0x30, 0x10] } =
    .next { listening with radioFlag := true, input := [0x10] } := by rfl
/-- A placed word is the one the next step runs: TSTART, FLUSH_RX, and the frame of block 1. -/
theorem test_step_placed : step (listening.withFetchWord 8 0x60) = exec .tstart listening ∧
    step (listening.withFetchWord 8 0x14) = exec .flushRx listening ∧
    step (listening.withFetchWord 80 0x100F0E0D0C0B0A00000F) =
      exec (.bindBlk1 block1) { listening with bindStage := .awaitHop1, bindCksum := 0x000F#16, variant := .ch3 } :=
  ⟨rfl, rfl, rfl⟩

/-! ### Witnesses: a state and operands that meet the hypotheses of each statement, clause by clause -/

theorem witness_DecodeInvertsEncode :
    WellFormed Config.cfg (dataMode .ch3) (.tick true) = true ∧ encode (.tick true) = some (.event, [0x11]) ∧
    WellFormed Config.cfg (bindMode .awaitHop3) (.bindBlk3 block3) = true ∧
    encode (.bindBlk3 block3) = some (.frame, block3.toList) := ⟨rfl, rfl, rfl, rfl⟩
theorem witness_EncodeInvertsDecode :
    decode Config.cfg .command (dataMode .ch3) [0x41, 0xDC, 0x05, 0x42] = .ok (.ptimerLoad 0x05DC#16, [0x42]) ∧
    decode Config.cfg .condition (dataMode .ch3) [0xF0] = .ok (.cond 0#4, []) := ⟨rfl, rfl⟩
/-- With the largest checksum. -/
theorem witness_MarkerAndHopBlockNeverConfused :
    (⟨.awaitHop3, 0x04FB#16, .ch3⟩ : FrameMode).cksum.toNat = 1275 ∧ isMarker .ch3 marker = true ∧
    isMarker .ch4 #v[0xFF, 0xAB, 0x56, 1, 2, 3, 4, 5, 0, 0] = true ∧
    isHopBlock 0x04FB#16 0x01#8 #v[0xFB, 0x04, 1, 0, 0, 0, 0, 0, 0, 0] = true := by decide
/-- The first and the last reserved code, and operand bits of RESET and TICK that the table does not have. -/
theorem witness_IllFormedEventsHaveNoStep : ∀ b ∈ [0x70#8, 0xFF#8, 0x01#8, 0x12#8],
    { listening with input := [b] }.port = .event ∧ { listening with input := [b] }.input = b :: [] ∧
    (7 ≤ (b.extractLsb' 4 4).toNat ∨
      ((b.extractLsb' 0 4).toNat ≠ 0 ∧ ¬((b.extractLsb' 4 4).toNat = 1 ∧ (b.extractLsb' 0 4).toNat = 1))) := by decide
theorem witness_StepRunsDecodedOperation :
    decode Config.cfg { listening with input := [0x30, 0x60] }.port (frameMode { listening with input := [0x30, 0x60] })
      { listening with input := [0x30, 0x60] }.input = .ok (.rirq, [0x60]) := by rfl
theorem witness_TraceOnlyGrows : ∃ t, step { listening with input := [0x60] } = .next t := ⟨_, rfl⟩
theorem witness_TimerCommandsStartAndStop : ∃ t, exec .hopTimerStop { listening with hopTimerRunning := true } = .next t :=
  ⟨_, rfl⟩
theorem witness_ConditionEntryOnlyForRaisedCodes : CondCode.bindMalformed.code = 1#4 ∧ CondCode.frameUnknown.code = 6#4 ∧
    (0#4 = 0#4 ∨ 7 ≤ (0#4).toNat) ∧ 7 ≤ (7#4).toNat ∧ 7 ≤ (15#4).toNat := by decide
theorem witness_CountdownsExpireAndPressRequestsOnce : listening.btnPrev = false ∧ listening.btnDeb = false := by decide
theorem witness_ButtonPhaseEntersOrDrops : listening.bindRequest = false ∧
    ({ listening with bindRequest := true }.bindRequest = true ∧ { listening with bindRequest := true }.bindStage = .idle) ∧
    ({ inSession .awaitAddr with bindRequest := true }.bindRequest = true ∧
      { inSession .awaitAddr with bindRequest := true }.bindStage ≠ .idle) := by decide
theorem witness_MarkerCapturesAddress : Instr.bind0Ch4 marker = .bind0Ch3 marker ∨ Instr.bind0Ch4 marker = .bind0Ch4 marker :=
  .inr rfl
/-- No session, a timed-out session with the flag set, a session with one tick left without the flag, and with it, the queue
empty, a frame that stays in the session before another, and one that commits. -/
theorem witness_BindPhaseTestsTimeoutFirst : listening.bindStage = .idle ∧
    ({ inSession .awaitHop3 with bindTimer := 0, radioFlag := true }.bindStage ≠ .idle ∧
      { inSession .awaitHop3 with bindTimer := 0, radioFlag := true }.bindTimer = 0) ∧
    (let s := { inSession .awaitAddr with bindTimer := 1 }
     s.bindStage ≠ .idle ∧ s.bindTimer ≠ 0 ∧ s.radioFlag = false) ∧
    (let s := { inSession .awaitHop1 with bindTimer := 1, radioFlag := true }
     s.bindStage ≠ .idle ∧ s.bindTimer ≠ 0 ∧ s.radioFlag = true ∧ s.rxq = []) ∧
    (let s := { inSession .awaitHop1 with bindTimer := 1, radioFlag := true, rxq := [block1, block2] }
     s.bindStage ≠ .idle ∧ s.bindTimer ≠ 0 ∧ s.radioFlag = true ∧ s.rxq = block1 :: [block2] ∧
       (handleFrame Config.cfg block1 { s with radioFlag := false, rxq := [block2] }).bindStage ≠ .idle) ∧
    (let s := { inSession .awaitHop3 with bindTimer := 1, radioFlag := true, rxq := [block3, block1] }
     s.bindStage ≠ .idle ∧ s.bindTimer ≠ 0 ∧ s.radioFlag = true ∧ s.rxq = block3 :: [block1] ∧
       (handleFrame Config.cfg block3 { s with radioFlag := false, rxq := [block1] }).bindStage = .idle) :=
  ⟨rfl, ⟨by decide, rfl⟩, ⟨by decide, by decide, rfl⟩, ⟨by decide, by decide, rfl, rfl⟩,
    ⟨by decide, by decide, rfl, rfl, fun h => by
      rw [show handleFrame Config.cfg block1 _ = bindBlock1 block1 _ from rfl] at h
      simp [bindBlock1] at h⟩,
    ⟨by decide, by decide, rfl, rfl, rfl⟩⟩
theorem witness_RejectedFramesNeverAdvanceStage :
    let s := { inSession .awaitHop2 with radioFlag := true, rxq := [block1, marker, block3], bindTimer := 1 }
    s.bindStage ≠ .idle ∧ s.bindTimer ≠ 0 ∧ s.radioFlag = true ∧
    (∀ f ∈ s.rxq, stageAccepts ⟨s.bindStage, s.bindCksum, s.variant⟩ f = false) :=
  ⟨by decide, by decide, rfl, List.forall_mem_cons.2 ⟨rfl, List.forall_mem_cons.2 ⟨rfl, List.forall_mem_singleton.2 rfl⟩⟩⟩
/-- The session of V-B2 to V-B4a with a rejected frame in every gap: another pair, an early block, a repeated block and a
marker. -/
theorem packets : BindPackets .ch3 #v[1, 2, 3, 4, 5] listening.hopSeq
    [block1, marker, block2, block1, block1, block2, marker, block3] :=
  ⟨0x000F#16, marker, block1, block2, block3, [block1], [block2], [block1], [marker], rfl, rfl, by decide, by decide, rfl,
    by decide, rfl, by decide, rfl, by decide, List.forall_mem_singleton.2 ⟨rfl, rfl⟩, List.forall_mem_singleton.2 rfl,
    List.forall_mem_singleton.2 rfl, List.forall_mem_singleton.2 rfl⟩
/-- One queue, with a frame after the commit. -/
theorem witness_BindSessionPersistsTransmittedRecord :
    let fs := [block1, marker, block2, block1, block1, block2, marker, block3]
    let s := { inSession .awaitAddr with radioFlag := true, rxq := fs ++ [stick3] }
    s.bindStage = .awaitAddr ∧ s.bindTimer ≠ 0 ∧ s.radioFlag = true ∧
      BindPackets .ch3 #v[1, 2, 3, 4, 5] listening.hopSeq fs ∧ s.rxq = fs ++ [stick3] :=
  ⟨rfl, by decide, rfl, packets, rfl⟩
/-- One frame a dispatch, which every queue depth admits, an empty dispatch among them, with the button held, ending one tick
before the timeout. -/
theorem witness_BindSessionPersistsTransmittedRecord_spread :
    let qs := [([block1], true), ([marker], true), ([], true), ([block2], true), ([block1], true), ([block1], true),
      ([block2], true), ([marker], true)]
    let s := { inSession .awaitAddr with bindTimer := 10 }
    s.bindStage = .awaitAddr ∧ s.rxq = [] ∧ s.radioCe = true ∧ qs.length + 1 < s.bindTimer ∧
      BindPackets .ch3 #v[1, 2, 3, 4, 5] listening.hopSeq ((qs.map (·.1)).flatten ++ [block3]) ∧ [block3] ≠ [] ∧
      (∀ p ∈ qs, p.1.length ≤ Config.cfg.rxQueueDepth) ∧ ([block3] ++ []).length ≤ Config.cfg.rxQueueDepth := by
  refine ⟨rfl, rfl, rfl, by decide, packets, by decide, fun p hp => ?_, Nat.le_add_left 1 _⟩
  have h : p.1.length ≤ 1 := by revert p; decide
  exact h.trans (Nat.le_add_left 1 _)
theorem witness_SilentSessionTimesOut :
    ({ inSession .awaitHop1 with bindTimer := 1 }.bindStage ≠ .idle ∧ { inSession .awaitHop1 with bindTimer := 1 }.radioFlag = false ∧
      [false] ≠ [] ∧ { inSession .awaitHop1 with bindTimer := 1 }.bindTimer = [false].length) ∧
    ((inSession .awaitAddr).bindStage ≠ .idle ∧ (inSession .awaitAddr).radioFlag = false ∧
      (inSession .awaitAddr).bindTimer = [true, true, false, true].length) := by decide
theorem witness_HopExpirySetsFlagOnce : { listening with hopTimerRunning := true }.hopTimerRunning = true ∧
    listening.hopTimerRunning = false := by decide
/-- No miss, the last miss below the threshold, and the threshold, at the last hop index. -/
theorem witness_HopPhaseAdvancesOrResyncs : listening.hopFlag = false ∧ listening.missCount.toNat ≤ 15 ∧
    ({ listening with hopFlag := true, hopIndex := 19#5, missCount := 14#5 }.hopFlag = true ∧
      { listening with hopFlag := true, hopIndex := 19#5, missCount := 14#5 }.missCount.toNat < 15) ∧
    ({ listening with hopFlag := true, missCount := 15#5 }.hopFlag = true ∧
      { listening with hopFlag := true, missCount := 15#5 }.missCount.toNat = 15) := by decide
theorem witness_SixteenthConsecutiveMissResyncs :
    let s := { listening with hopTimerRunning := true, hopIndex := 19#5 }
    s.bindStage = .idle ∧ s.hopTimerRunning = true ∧ s.radioFlag = false ∧ s.missCount = 0#5 ∧ s.hopIndex.toNat < 20 ∧
    0 ≤ 15 ∧ 15 ≤ 15 ∧ 16 = 16 := by decide
theorem witness_ReceiverHandlesLastFrameOnly : listening.radioFlag = false ∧
    ({ listening with radioFlag := true }.radioFlag = true ∧ { listening with radioFlag := true }.rxq = []) ∧
    ({ listening with radioFlag := true, rxq := [marker, stick3] }.radioFlag = true ∧
      { listening with radioFlag := true, rxq := [marker, stick3] }.rxq = [marker] ++ [stick3]) := by decide
theorem witness_StickFrameRoundTrip : { listening with variant := .ch4 }.variant = .ch4 := by decide
theorem witness_FailsafePhasePublishesFallback : listening.everReceived = false ∧
    { listening with everReceived := true, fsTimer := 1 }.fsTimer ≠ 0 ∧
    ({ listening with everReceived := true }.everReceived = true ∧ { listening with everReceived := true }.fsTimer = 0) := by
  decide
/-- F = 1 and F = 3. -/
theorem witness_FailsafeAppliedAtTimeout : ∀ n ∈ [0, 2],
    let s := { listening with everReceived := true, status := .receiving, fsTimer := n + 1 }
    s.bindStage = .idle ∧ s.everReceived = true ∧ s.radioFlag = false ∧ s.status ≠ .failsafe ∧ s.fsTimer = n + 1 := by decide
theorem witness_TrainStartsOnlyFromOff : listening.pstate = .off ∧ { listening with pstate := .ch 3 }.pstate ≠ .off := by decide
/-- From channel 0 to 1, from the last channel of each variant to OFF, and a stopped timer. -/
theorem witness_PulseExpiryStepsTrain :
    ({ listening with pstate := .ch 0, ptimerRunning := true }.ptimerRunning = true ∧
      (1 : Fin 4).val = (0 : Fin 4).val + 1 ∧ (1 : Fin 4).val < channelCount listening.variant) ∧
    channelCount Variant.ch3 ≤ (2 : Fin 4).val + 1 ∧ channelCount Variant.ch4 ≤ (3 : Fin 4).val + 1 ∧
    listening.ptimerRunning = false := by decide
theorem witness_TrainEmitsPublishedWidths : listening.pstate = .off ∧ { listening with variant := .ch4 }.pstate = .off := by
  decide
/-- A dispatch that publishes nothing leaves the selector as it was. -/
theorem witness_DispatchNeverTearsActiveSlot : ∃ t, exec (.tick false) listening = .next t ∧ t.psel = listening.psel :=
  ⟨_, rfl, rfl⟩
theorem witness_LedFollowsStatus : listening.ledLast ≠ some listening.status ∧
    ({ listening with ledLast := some .receiving, status := .receiving }.ledLast = some .receiving) ∧
    ({ listening with ledLast := some .idle, blinkTimer := 1 }.ledLast = some .idle ∧
      { listening with ledLast := some .idle, blinkTimer := 1 }.blinkTimer ≠ 0) ∧
    ({ listening with ledLast := some .idle }.ledLast = some listening.status ∧ listening.status ≠ .receiving ∧
      { listening with ledLast := some .idle }.blinkTimer = 0) := by decide
theorem witness_LedBlinksWithItsPeriod :
    let s := { listening with ledLast := some .idle, led := true, blinkTimer := Config.cfg.blinkPeriod .idle }
    s.status ≠ .receiving ∧ s.ledLast = some s.status ∧ s.led = true ∧ s.blinkTimer = Config.cfg.blinkPeriod s.status :=
  ⟨by decide, rfl, rfl, rfl⟩
/-- Chip-enable low, a full queue, and an empty one (the depth is at least 1). -/
theorem witness_RadioEventsQueueAndFlag : { listening with radioCe := false }.radioCe = false ∧
    { listening with rxq := List.replicate Config.cfg.rxQueueDepth marker }.rxq.length = Config.cfg.rxQueueDepth ∧
    (listening.radioCe = true ∧ listening.rxq.length ≠ Config.cfg.rxQueueDepth) :=
  ⟨rfl, List.length_replicate, rfl, by simp [listening, State.reset, Cfg.rxQueueDepth]⟩
/-- The phases of a dispatch outside a session, and after one that stays in its session. -/
theorem witness_TickRunsPhasesInOrder :
    (∃ t, exec .dispBind listening = .next t ∧ t.bindStage = .idle) ∧
    ∃ t, exec .dispBind (inSession .awaitAddr) = .next t ∧ t.bindStage ≠ .idle := by
  refine ⟨⟨_, rfl, rfl⟩, ⟨_, rfl, ?_⟩⟩; decide
/-- A stick frame with no press, at the last hop index. -/
theorem witness_PendingHopCountedAfterValidFrame :
    let f : Frame := Vector.replicate 10 (Config.cfg.stickId .ch3)
    let s := { listening with radioFlag := true, hopFlag := true, rxq := [marker, f], hopIndex := 19#5 }
    s.bindStage = .idle ∧ s.radioFlag = true ∧ s.hopFlag = true ∧ s.rxq = [marker] ++ [f] ∧
      (f[7] = Config.cfg.stickId s.variant ∨ f[7] = Config.cfg.failsafeId s.variant) ∧
      ¬(false = true ∧ s.btnPrev = true ∧ s.btnDeb = false) := ⟨rfl, rfl, rfl, rfl, .inl rfl, by decide⟩
/-- A failsafe frame with a first pressed sample, and with a press that is already debounced. -/
theorem witness_PendingHopCountedAfterValidFrame_failsafe : ∀ pressed : Bool,
    let f : Frame := Vector.replicate 10 (Config.cfg.failsafeId .ch3)
    let s := { listening with radioFlag := true, hopFlag := true, rxq := [f], btnPrev := pressed, btnDeb := pressed }
    s.bindStage = .idle ∧ s.radioFlag = true ∧ s.hopFlag = true ∧ s.rxq = [] ++ [f] ∧
      (f[7] = Config.cfg.stickId s.variant ∨ f[7] = Config.cfg.failsafeId s.variant) ∧
      ¬(true = true ∧ s.btnPrev = true ∧ s.btnDeb = false) :=
  fun pressed => ⟨rfl, rfl, rfl, rfl, .inr rfl, by cases pressed <;> decide⟩
/-- A dispatch that commits. -/
theorem witness_ConfigurationChangesOnlyAtCommit :
    let s := { inSession .awaitHop3 with radioFlag := true, rxq := [block3], input := [0x10] }
    s.port = .event ∧ decodeEvent s.input = .ok (.tick false, []) ∧ Instr.tick false ≠ .reset ∧
      ∃ t, step s = .next t ∧ t.bindStage = .idle := ⟨rfl, rfl, nofun, _, rfl, rfl⟩
theorem witness_ResetAndBoot : { listening with nv := none }.nv = none ∧ listening.nv = some rec3 := by decide

/-- A stick frame of the current variant, whatever its identifier is. -/
def anyStick : Frame := Vector.replicate 10 (Config.cfg.stickId .ch3)

/-- The phases after the receiver keep `ever_received`. -/
theorem laterPhases_everReceived (c : Cfg) (s : State) :
    (ledPhase c (hopPhase c (fsPhase c s))).everReceived = s.everReceived := by
  rw [ledPhase_eq]
  rcases hopPhase_cases c (fsPhase c s) with ⟨-, e⟩ | ⟨-, -, e⟩ | ⟨-, -, e⟩ <;> rw [e] <;>
    rcases fsPhase_cases c s with ⟨-, e⟩ | ⟨-, -, e⟩ <;> rw [e]

theorem anyStick_received (s : State) (hi : s.bindStage = .idle) (hv : s.variant = .ch3) :
    (handleFrame Config.cfg anyStick s).everReceived = true := by
  rcases handleFrame_data Config.cfg anyStick s hi with ⟨-, e⟩ | ⟨h, -⟩
  · rw [e]; rfl
  · exact absurd (by simp [anyStick, hv]) h

/-- A dispatch that finds the first stick frame of the session. -/
def firstStick : State := { listening with radioFlag := true, rxq := [anyStick], input := [0x10] }

theorem witness_EverReceivedSetOnlyByStickData_set :
    firstStick.port = .event ∧ decodeEvent firstStick.input = .ok (.tick false, []) ∧ firstStick.everReceived = false ∧
      ∃ t, step firstStick = .next t ∧ t.everReceived = true := by
  refine ⟨rfl, rfl, rfl, dispatch Config.cfg false { firstStick with input := [] }, rfl, ?_⟩
  have hd : dispatch Config.cfg false { firstStick with input := [] } =
      ledPhase Config.cfg (hopPhase Config.cfg (fsPhase Config.cfg (rxPhase Config.cfg
        (tickPhase false { firstStick with input := [] })))) := rfl
  rw [hd, laterPhases_everReceived, rxPhase_eq _ _ rfl]
  exact anyStick_received _ rfl rfl
/-- A RESET after stick data. -/
theorem witness_EverReceivedSetOnlyByStickData_cleared :
    let s := { listening with everReceived := true, input := [0x00] }
    s.port = .event ∧ decodeEvent s.input = .ok (.reset, []) ∧ s.everReceived = true ∧
      ∃ t, step s = .next t ∧ t.everReceived = false := ⟨rfl, rfl, rfl, _, rfl, rfl⟩

theorem witness_StepKeepsHopInRange :
    let s := { listening with input := [0x40], hopTimerRunning := true, hopIndex := 19#5, missCount := 15#5 }
    s.port = .event ∧ HopInRange s ∧ ∃ t, step s = .next t := ⟨rfl, by unfold HopInRange; decide, _, rfl⟩
/-- With the largest checksum. -/
theorem witness_StepKeepsSessionCoherent :
    let s := { inSession .awaitHop3 with
      input := [0x10], bindCksum := 0x04FB#16
      bindRec := #v[255, 255, 255, 255, 255, 0, 0, 0, 0, 0, 0, 0, 0, 0, 0, 0, 0, 0, 0, 0, 0, 0, 0, 0, 0, 0xAB] }
    s.port = .event ∧ SessionCoherent s ∧ ∃ t, step s = .next t := ⟨rfl, by unfold SessionCoherent; decide, _, rfl⟩
theorem witness_StepKeepsFailsafeEarned :
    let s := { listening with input := [0x60] }
    s.port = .event ∧ StatusEarned s ∧ ∃ t, step s = .next t ∧ t.everReceived = false ∧ t.draws = s.draws :=
  ⟨rfl, by unfold StatusEarned; decide, _, rfl, rfl, rfl⟩
theorem witness_StepKeepsPulseCoherent :
    let s := { listening with
      input := [0x50], pstate := .ch 2, ptimerRunning := true, pin := #v[false, false, true, true] }
    s.port = .event ∧ PulseCoherent s ∧ ∃ t, step s = .next t := ⟨rfl, ⟨rfl, rfl, by decide⟩, _, rfl⟩
/-- The countdowns at their reloads and the queue full. -/
theorem witness_StepKeepsCountdownsAndQueueBounded :
    let s := { listening with
      input := [0x30], fsTimer := Config.cfg.fsTimeoutTicks, bindTimer := Config.cfg.bindTimeoutTicks
      ledLast := some .binding, blinkTimer := Config.cfg.blinkPeriod .binding
      rxq := List.replicate Config.cfg.rxQueueDepth marker }
    s.port = .event ∧ CountdownsBounded Config.cfg s ∧ QueueBounded Config.cfg s ∧ ∃ t, step s = .next t :=
  ⟨rfl, ⟨le_rfl, le_rfl, le_rfl⟩, List.length_replicate.le, _, rfl⟩
/-- Listening at the last hop index. -/
theorem witness_StepKeepsRadioTuned :
    let s := { listening with input := [0x40], hopTimerRunning := true, hopIndex := 19#5, radioChannel := 0x1D#8 }
    BetweenEvents s ∧ ConfigStored s ∧ RadioTuned Config.cfg s ∧ ∃ t, step s = .next t :=
  ⟨⟨rfl, rfl, rfl⟩, ⟨by decide, by decide, rfl⟩, ⟨rfl, fun _ => rfl⟩, _, rfl⟩
/-- In a session. -/
theorem witness_StepKeepsRadioTuned_session :
    let s := { inSession .awaitAddr with
      input := [0x30], radioAddr := Config.cfg.beaconAddr, radioChannel := Config.cfg.beaconChannel }
    BetweenEvents s ∧ ConfigStored s ∧ RadioTuned Config.cfg s ∧ ∃ t, step s = .next t :=
  ⟨⟨rfl, rfl, rfl⟩, ⟨by decide, by decide, rfl⟩, ⟨rfl, rfl⟩, _, rfl⟩

end Sys2Proof.Tests
end

section
/-! PROOFS. The tick phase and the hop phase run alone (spec/47_tick_scheduler.md R144, R145; spec/42_hop_scheduler.md R115,
R116), within the index and countdown arithmetic of spec/00_scope.md R17. -/

namespace Sys2Proof.Machine

/-! ### The tick phase -/

theorem exec_dispTick (b : Bool) (s : State) : exec (.dispTick b) s = .next (tickPhase b s) := rfl

/-- Settles O13: the tick phase is one record update, in which the debounced state and the press edge are R145's. -/
theorem tickPhaseCountsAndDebounces : Obligations.TickPhaseCountsAndDebounces := by
  intro s b
  rw [exec_dispTick, tickPhase_eq]
  simp only [debounced, pressEdge]

/-! ### The hop phase -/

theorem exec_dispHop (s : State) : exec .dispHop s = .next (hopPhase Config.cfg s) := rfl

theorem hopChannel_of_lt (t : HopTable) {i : BitVec 5} (h : i.toNat < 20) : hopChannel t i = t[i.toNat] := by
  simp only [hopChannel, h, dite_true]

/-- The channel the advance tunes to is the table's entry at the next index modulo 20 (R17, R115). -/
theorem hopChannel_nextHopIndex (t : HopTable) (i : BitVec 5) (h : (i.toNat + 1) % 20 < 20) :
    hopChannel t (nextHopIndex i) = t[(i.toNat + 1) % 20] := by
  simp only [hopChannel_of_lt t (nextHopIndex_lt i), nextHopIndex_toNat]

/-- In the reachable range the 5-bit miss counter counts without wrapping. -/
theorem missCount_succ_toNat {m : BitVec 5} (h : m.toNat ≤ 15) : (m + 1#5).toNat = m.toNat + 1 := by
  bv_omega

/-- With a hop pending and fewer than 15 misses the hop phase advances (R115). -/
theorem hopPhase_advance (c : Cfg) (s : State) (hf : s.hopFlag = true) (hm : s.missCount.toNat < 15) :
    hopPhase c s =
      { s with
        hopFlag := false, missCount := s.missCount + 1#5, hopIndex := nextHopIndex s.hopIndex
        radioChannel := hopChannel s.hopSeq (nextHopIndex s.hopIndex)
        trace := s.trace ++ [.cmd (.setChannel (hopChannel s.hopSeq (nextHopIndex s.hopIndex)))] } := by
  have hs : (s.missCount + 1#5).toNat = s.missCount.toNat + 1 := missCount_succ_toNat hm.le
  rcases hopPhase_cases c s with ⟨hf', -⟩ | ⟨-, hm', -⟩ | ⟨-, -, e⟩
  · simp [hf] at hf'
  · omega
  · exact e

/-- With a hop pending the 16th consecutive miss resynchronises (R115, R116). -/
theorem hopPhase_resync (c : Cfg) (s : State) (hf : s.hopFlag = true) (hm : s.missCount.toNat = 15) :
    hopPhase c s =
      { s with
        hopFlag := false, hopTimerRunning := false, hopIndex := 0#5, rxq := [], radioChannel := s.hopSeq[0]
        missCount := 0#5
        trace := s.trace ++
          [.cmd .hopTimerStop, .cmd .flushRx, .cmd (.setChannel s.hopSeq[0]), .cond .hopResync .nothing] } := by
  have hs : (s.missCount + 1#5).toNat = s.missCount.toNat + 1 := missCount_succ_toNat hm.le
  rcases hopPhase_cases c s with ⟨hf', -⟩ | ⟨-, -, e⟩ | ⟨-, hm', -⟩
  · simp [hf] at hf'
  · exact e
  · omega

/-- Settles O30: the three cases of the hop phase, told apart by the flag and by the miss count at the threshold. -/
theorem hopPhaseAdvancesOrResyncs : Obligations.HopPhaseAdvancesOrResyncs := by
  intro s _
  refine ⟨fun hf => ?_, fun hf hm => ?_, fun hf hm => ?_⟩
  · rw [exec_dispHop, hopPhase_idle _ _ hf]
  · have hi : (s.hopIndex.toNat + 1) % 20 < 20 := Nat.mod_lt _ (by decide)
    refine ⟨_, nextHopIndex s.hopIndex, exec_dispHop s, hi, ?_, nextHopIndex_toNat s.hopIndex⟩
    rw [hopPhase_advance _ _ hf hm, hopChannel_nextHopIndex _ _ hi]
  · rw [exec_dispHop, hopPhase_resync _ _ hf hm]

end Sys2Proof.Machine
end

section
/-! PROOFS. One induction over a step, shared by the invariants of spec/10_state.md (R48): the routine operations, which most
invariants keep without effort, are listed once, and what they keep is carried through the phases of a dispatch (R94) and the
other events (R66). The four operations that write what the invariants speak of, namely the tick phase, a stick frame, a commit
and RESET, are left to each invariant. -/

namespace Sys2Proof.Machine

/-- A property that every operation keeps but the tick phase, a stick frame, a commit and RESET. Each operation appears with
the fields it writes left free where the property may not depend on them, so an operation that writes no field of the property
is kept by definition. -/
structure KeptByRoutine (c : Cfg) (P : State → Prop) : Prop where
  /-- the fetch consumes an event's bytes (R73) -/
  input : ∀ s rest, P s → P { s with input := rest, port := .event } := by exact fun _ _ h => h
  /-- an entry of the trace that is no NV_SAVE: a condition, or CLEAR_IRQ, which has no mirror (R148, R156) -/
  record : ∀ s e, (∀ r, e ≠ .cmd (.nvSave r)) → P s → P (record e s) := by exact fun _ _ _ h => h
  /-- the radio flag set or cleared (R97, R98) -/
  radioFlag : ∀ s b, P s → P { s with radioFlag := b } := by exact fun _ _ h => h
  /-- frames taken from the queue (R58) -/
  queue : ∀ s q, q.length ≤ s.rxq.length → P s → P { s with rxq := q } := by exact fun _ _ _ h => h
  /-- a frame enters the queue (R96) -/
  receive : ∀ s f, s.radioCe = true → s.rxq.length ≠ c.rxQueueDepth → P s → P { s with rxq := s.rxq ++ [f] } := by
    exact fun _ _ _ _ h => h
  /-- the bind request consumed or dropped (R95) -/
  request : ∀ s, P s → P { s with bindRequest := false } := by exact fun _ h => h
  /-- a session begins (R100) -/
  enter : ∀ s, s.bindStage = .idle → P s → P (bindEnter c s)
  /-- a session begins anew (R102) -/
  restart : ∀ s, s.bindStage ≠ .idle → P s → P (bindRestart c s)
  /-- a session goes on: a marker or a hop block before the last (R104, R105) -/
  advance : ∀ s r k st, s.bindStage ≠ .idle → st ≠ .idle → P s →
    P { s with bindRec := r, bindCksum := k, bindStage := st } := by
    exact fun _ _ _ _ _ _ h => h
  /-- a session times out (R110) -/
  timeout : ∀ s, s.bindStage ≠ .idle → P s → P (bindTimeout c s)
  /-- a failsafe frame: the FailsafeSet, then `hop_valid()` (R122) -/
  failsafeFrame : ∀ s en vals, P s → P (hopValid c { s with fsEnabled := en, fsValues := vals })
  /-- the failsafe phase (R126) -/
  fs : ∀ s, P s → P (fsPhase c s)
  /-- the hop phase (R115) -/
  hop : ∀ s, s.bindStage = .idle → P s → P (hopPhase c s)
  /-- the LED phase (R141) -/
  led : ∀ s, P s → P (ledPhase c s)
  /-- the hop timer expires (R114) -/
  expire : ∀ s, P s → P (hopExpire s) := by exact fun _ h => h
  /-- the pulse generator enters a state or OFF (R133, R135) -/
  pulse : ∀ s p st run v es, (∀ r, .cmd (.nvSave r) ∉ es) → P s →
    P { s with pin := p, pstate := st, ptimerRunning := run, ptimerReload := v, trace := s.trace ++ es } := by
    exact fun _ _ _ _ _ _ _ h => h

/-- A commit (R107) of some record, run in a state that has the property. -/
def CommitFrom (c : Cfg) (P : State → Prop) (t : State) : Prop :=
  ∃ u r, P u ∧ t = bindCommit c { u with bindRec := r }

theorem CommitFrom.bindStage {c : Cfg} {P : State → Prop} {t : State} (h : CommitFrom c P t) : t.bindStage = .idle := by
  obtain ⟨u, r, -, rfl⟩ := h
  rw [bindCommit_eq]

namespace KeptByRoutine

variable {c : Cfg} {P : State → Prop} (hk : KeptByRoutine c P)

include hk

theorem buttonPhase (s : State) (h : P s) : P (buttonPhase c s) := by
  have hr : P { s with bindRequest := false } := hk.request s h
  rcases buttonPhase_cases c s with ⟨-, e⟩ | ⟨-, hi, e⟩ | ⟨-, -, -, e⟩ | ⟨-, hs, -, e⟩ <;> rw [e]
  · exact h
  · exact hk.enter _ hi hr
  · exact hr
  · exact hk.restart _ hs hr

/-- A frame in a session (R86): a routine, or a commit from the third block. -/
theorem handleFrame_session (s : State) (f : Frame) (hs : s.bindStage ≠ .idle) (h : P s) :
    P (handleFrame c f s) ∨ CommitFrom c P (handleFrame c f s) := by
  rcases handleFrame_bind c f s hs with ⟨-, e⟩ | ⟨-, e⟩ | ⟨-, e⟩ | ⟨-, e⟩ | e <;> rw [e]
  · exact .inl (hk.advance s _ _ _ hs (by decide) h)
  · exact .inl (hk.advance s _ s.bindCksum _ hs (by decide) h)
  · exact .inl (hk.advance s _ s.bindCksum _ hs (by decide) h)
  · exact .inr ⟨s, _, h, bindBlock3_eq c f s⟩
  · exact .inl (hk.record s _ nofun h)

/-- A frame in data mode (R86): only a stick frame is no routine. -/
theorem handleFrame_data (hst : ∀ s f, P s → P (stickFrame c f s)) (s : State) (f : Frame)
    (hi : s.bindStage = .idle) (h : P s) : P (handleFrame c f s) := by
  rcases Machine.handleFrame_data c f s hi with ⟨-, e⟩ | ⟨-, e | e | e⟩ <;> rw [e]
  · exact hst s f h
  · exact hk.failsafeFrame s true _ h
  · exact hk.failsafeFrame s false _ h
  · exact hk.record s _ nofun h

/-- The bind drain (R103): routine operations, ended by a commit or by CLEAR_IRQ. -/
theorem bindDrain_or_commit (n : Nat) (s : State) (hs : s.bindStage ≠ .idle) (h : P s) :
    P (bindDrain c n s) ∨ CommitFrom c P (bindDrain c n s) := by
  induction n generalizing s with
  | zero => exact .inl (hk.record s _ nofun h)
  | succ n ih =>
    rcases hq : s.rxq with _ | ⟨f, q⟩
    · rw [bindDrain_nil c s _ hq]; exact .inl (hk.record s _ nofun h)
    · rw [bindDrain_cons c f s n q hq]
      rcases hk.handleFrame_session { s with rxq := q } f hs (hk.queue s q (by simp [hq]) h) with hp | hcommit
      · split
        · exact .inl hp
        · exact ih _ (by assumption) hp
      · rw [if_pos hcommit.bindStage]; exact .inr hcommit

/-- The bind phase (R103): routine operations, or, in a session with the radio flag set, a drain that ends in a commit. -/
theorem bindPhase_or_commit (s : State) (h : P s) :
    P (Machine.bindPhase c s) ∨
      (s.bindStage ≠ .idle ∧ s.radioFlag = true ∧ CommitFrom c P (Machine.bindPhase c s)) := by
  rcases bindPhase_cases c s with ⟨-, e⟩ | ⟨hs, -, e⟩ | ⟨-, -, -, e⟩ | ⟨hs, -, hr, e⟩ <;> rw [e]
  · exact .inl h
  · exact .inl (hk.timeout s hs h)
  · exact .inl h
  · have hdrain := hk.bindDrain_or_commit s.rxq.length { s with radioFlag := false } hs (hk.radioFlag s false h)
    exact hdrain.imp_right fun hcommit => ⟨hs, hr, hcommit⟩

theorem bindPhase (hc : ∀ s r, P s → P (bindCommit c { s with bindRec := r })) (s : State) (h : P s) :
    P (bindPhase c s) := by
  rcases hk.bindPhase_or_commit s h with h' | ⟨-, -, u, r, hu, e⟩
  · exact h'
  · rw [e]; exact hc u r hu

theorem rxPhase (hst : ∀ s f, P s → P (stickFrame c f s)) (s : State) (hi : s.bindStage = .idle) (h : P s) :
    P (rxPhase c s) :=
  have hq : P { s with radioFlag := false, rxq := [] } := hk.queue _ [] (Nat.zero_le _) (hk.radioFlag s false h)
  rxPhase_keeps c s hi h (hk.record _ (.cmd .clearIrq) nofun hq) (hk.handleFrame_data hst)

/-- A dispatch from the button phase on (R94). -/
theorem dispatch_of_button (hc : ∀ s r, P s → P (bindCommit c { s with bindRec := r }))
    (hst : ∀ s f, P s → P (stickFrame c f s)) (s : State) (b : Bool)
    (h : P (Machine.buttonPhase c (tickPhase b s))) : P (dispatch c b s) := by
  have h3 := hk.bindPhase hc _ h
  unfold dispatch
  apply hk.led
  split
  · rename_i hi
    have hi4 := rxPhase_stage c _ hi
    exact hk.hop _ ((fsPhase_stage c _).trans hi4) (hk.fs _ (hk.rxPhase hst _ hi h3))
  · exact h3

theorem dispatch (ht : ∀ s b, P s → P (tickPhase b s)) (hc : ∀ s r, P s → P (bindCommit c { s with bindRec := r }))
    (hst : ∀ s f, P s → P (stickFrame c f s)) (s : State) (b : Bool) (h : P s) : P (dispatch c b s) :=
  hk.dispatch_of_button hc hst s b (hk.buttonPhase _ (ht s b h))

theorem radioReceive (s : State) (f : Frame) (h : P s) : P (radioReceive c f s) := by
  rcases radioReceive_cases c s f with e | ⟨hce, hn, e⟩ <;> rw [e]
  · exact h
  · exact hk.receive s f hce hn h

theorem pulseEnter (s : State) (k : Fin 4) (h : P s) : P (pulseEnter c k s) := by
  rw [pulseEnter_eq]; exact hk.pulse s _ _ _ _ _ (by simp) h

theorem pulseOff (s : State) (k : Fin 4) (h : P s) : P (pulseOff c k s) := by
  rw [pulseOff_eq]; exact hk.pulse s _ _ _ s.ptimerReload _ (by simp) h

end KeptByRoutine

/-! ### One step -/

/-- A step in the event space is the event's operation on the state with its bytes consumed (R66, R73). -/
theorem step_eq_exec {s : State} {i : Instr} {rest : List Byte} (hp : s.port = .event)
    (hd : decodeEvent s.input = .ok (i, rest)) : step s = exec i { s with input := rest, port := .event } := by
  have hne : s.input ≠ [] := by
    intro e
    rw [e] at hd
    cases hd
  have hdec : decode Config.cfg s.port (frameMode s) s.input = .ok (i, rest) := by rw [hp]; exact hd
  have hf : fetch Config.cfg s = .ok (i, { s with input := rest, port := .event }) :=
    (fetch_ok_iff s _ _ i).mpr ⟨rest, hne, hdec, rfl⟩
  simp only [step, hf]

/-- A step that gives a next state has read an event. -/
theorem decodeEvent_of_step {s t : State} (hp : s.port = .event) (h : step s = .next t) :
    ∃ i rest, decodeEvent s.input = .ok (i, rest) := by
  unfold step at h
  rcases e : fetch Config.cfg s with r | ⟨i, s₀⟩
  · rw [e] at h; cases h
  · obtain ⟨rest, -, hd, -⟩ := (fetch_ok_iff s s₀ _ i).mp e
    rw [hp] at hd
    exact ⟨i, rest, hd⟩

/-- What one event can do: RESET, a dispatch, or routine operations alone. -/
theorem step_event {s t : State} {i : Instr} {rest : List Byte} (hp : s.port = .event)
    (hd : decodeEvent s.input = .ok (i, rest)) (h : step s = .next t) :
    (i = .reset ∧ t = resetBlock Config.cfg (Config.pulseBufferDraw s.draws) (Config.selectorDraw s.draws)
        { s with input := rest, port := .event }) ∨
      (∃ b, i = .tick b ∧ t = dispatch Config.cfg b { s with input := rest, port := .event }) ∨
      (∀ P, KeptByRoutine Config.cfg P → P s → P t) := by
  rw [step_eq_exec hp hd] at h
  rcases decodeEvent_cases _ _ _ hd with rfl | ⟨b, rfl⟩ | ⟨f, rfl⟩ | rfl | rfl | rfl | rfl
  case inl => exact .inl ⟨rfl, (Host.Outcome.next.inj h).symm⟩
  case inr.inl => exact .inr (.inl ⟨b, rfl, (Host.Outcome.next.inj h).symm⟩)
  all_goals
    refine .inr (.inr fun P hk hP => ?_)
    have h₀ : P { s with input := rest, port := .event } := hk.input s rest hP
  case inr.inr.inl =>
    obtain rfl := Host.Outcome.next.inj h
    exact hk.radioReceive _ f h₀
  case inr.inr.inr.inl =>
    obtain rfl := Host.Outcome.next.inj h
    exact hk.radioFlag _ true h₀
  case inr.inr.inr.inr.inl =>
    obtain ⟨-, rfl⟩ := execHexp_next _ _ h
    exact hk.expire _ h₀
  case inr.inr.inr.inr.inr.inl =>
    obtain ⟨k, -, -, rfl⟩ := execPexp_next _ _ h
    exact pulseNext_keeps _ _ k (fun k => hk.pulseEnter _ k h₀) (fun k => hk.pulseOff _ k h₀)
  case inr.inr.inr.inr.inr.inr =>
    obtain rfl := Host.Outcome.next.inj h
    exact trainStart_keeps _ _ (hk.pulseEnter _ 0 h₀) h₀

/-- The induction over a step: what the routine operations and the four others keep, every step keeps (R66). -/
theorem KeptByRoutine.step {P : State → Prop} (hk : KeptByRoutine Config.cfg P) (ht : ∀ s b, P s → P (tickPhase b s))
    (hc : ∀ s r, P s → P (bindCommit Config.cfg { s with bindRec := r }))
    (hst : ∀ s f, P s → P (stickFrame Config.cfg f s)) (hr : ∀ s pb sel, P s → P (resetBlock Config.cfg pb sel s))
    {s t : State} (hp : s.port = .event) (h : P s) (hs : Machine.step s = .next t) : P t := by
  obtain ⟨i, rest, hd⟩ := decodeEvent_of_step hp hs
  rcases step_event hp hd hs with ⟨-, rfl⟩ | ⟨b, -, rfl⟩ | hrest
  · exact hr _ _ _ (hk.input s rest h)
  · exact hk.dispatch ht hc hst _ b (hk.input s rest h)
  · exact hrest P hk h

/-! ### RESET -/

/-- RESET as one record update (R184, R186): the reset column, a live configuration, and the receiver armed on it. -/
theorem resetBlock_eq (c : Cfg) (pb : PulseBuffer) (sel : Fin 2) (s : State) :
    ∃ a h v es, resetBlock c pb sel s =
      { resetFields pb sel s with
        modelAddr := a, hopSeq := h, variant := v, fsEnabled := false, fsValues := Vector.replicate 4 (c.center v)
        radioCfg := radioInitCfg c, radioAddr := a, radioChannel := h[0], radioCe := true, trace := s.trace ++ es } := by
  rcases hnv : s.nv with _ | r
  · exact ⟨Vector.replicate 5 0#8, Vector.replicate 20 0#8, .ch3, _, by
      simp [resetBlock, bootBlock, bootConfig, nvLoad, resetFields, hnv, rearm_eq, emit, applyCommand, record, raise]
      rfl⟩
  · exact ⟨recordAddress r, recordHops r, recordVariant r, _, by
      simp [resetBlock, bootBlock, bootConfig, nvLoad, resetFields, hnv, rearm_eq, emit, applyCommand, record, bindParse]
      rfl⟩

end Sys2Proof.Machine
end

section
/-! PROOFS. Two of the step lemmas of spec/10_state.md (R48): the ranges of the hop index and the miss counter, and the
statuses that only stick data earns. -/

namespace Sys2Proof.Machine

/-! ### The hop index and the miss counter -/

theorem hopInRange_zero {s : State} (hi : s.hopIndex = 0#5) (hm : s.missCount = 0#5) : HopInRange s := by
  simp [HopInRange, hi, hm]

theorem hopPhase_hopInRange (c : Cfg) (s : State) (h : HopInRange s) : HopInRange (hopPhase c s) := by
  rcases hopPhase_cases c s with ⟨-, e⟩ | ⟨-, -, e⟩ | ⟨-, hm, e⟩ <;> rw [e]
  · exact h
  · exact hopInRange_zero rfl rfl
  · exact ⟨nextHopIndex_lt s.hopIndex, hm⟩

theorem hopValid_hopInRange (c : Cfg) (s : State) (h : HopInRange s) : HopInRange (hopValid c s) := by
  rw [hopValid_eq]
  exact ⟨h.1, Nat.zero_le 15⟩

theorem hopInRange_keptByRoutine (c : Cfg) : KeptByRoutine c HopInRange where
  enter s _ h := by rw [bindEnter_eq]; exact h
  restart s _ h := h
  timeout s _ _ := by rw [bindTimeout_eq]; exact hopInRange_zero rfl rfl
  failsafeFrame s _ _ h := hopValid_hopInRange c _ h
  fs s h := by rcases fsPhase_cases c s with ⟨-, e⟩ | ⟨-, -, e⟩ <;> rw [e] <;> exact h
  hop s _ h := hopPhase_hopInRange c s h
  led s h := by rw [ledPhase_eq]; exact h

/-- Settles O55: the index and the counter are written by the hop phase, a valid frame and the re-arming alone, and every other
operation keeps them. -/
theorem stepKeepsHopInRange : Obligations.StepKeepsHopInRange := by
  intro s t hp h hs
  refine (hopInRange_keptByRoutine Config.cfg).step (fun s b h => h) (fun s r _ => ?_) (fun s f h => ?_)
    (fun s pb sel _ => ?_) hp h hs
  · rw [bindCommit_eq]; exact hopInRange_zero rfl rfl
  · exact hopValid_hopInRange Config.cfg _ h
  · obtain ⟨_, _, _, _, e⟩ := resetBlock_eq Config.cfg pb sel s
    rw [e]; exact hopInRange_zero rfl rfl

/-! ### Failsafe and Receiving, and the PulseBuffer, before stick data -/

theorem statusEarned_of_received {s : State} (h : s.everReceived = true) : StatusEarned s := by
  simp [StatusEarned, h]

theorem statusEarned_keptByRoutine (c : Cfg) : KeptByRoutine c StatusEarned where
  enter s _ h := by
    rw [bindEnter_eq]
    intro he
    obtain ⟨hf, hr, -, -⟩ := h he
    exact ⟨nofun, nofun, hf, hr⟩
  restart s _ h := h
  timeout s _ h := by
    rw [bindTimeout_eq]
    intro he
    obtain ⟨-, -, hf, hr⟩ := h he
    exact ⟨hf, hr, hf, hr⟩
  failsafeFrame s _ _ h := by rw [hopValid_eq]; exact h
  fs s h := by
    rcases fsPhase_cases c s with ⟨-, e⟩ | ⟨he, -, e⟩ <;> rw [e]
    · exact h
    · exact statusEarned_of_received he
  hop s _ h := by rcases hopPhase_cases c s with ⟨-, e⟩ | ⟨-, -, e⟩ | ⟨-, -, e⟩ <;> rw [e] <;> exact h
  led s h := by rw [ledPhase_eq]; exact h

theorem bindCommit_statusEarned (c : Cfg) (s : State) (h : StatusEarned s) : StatusEarned (bindCommit c s) := by
  rw [bindCommit_eq]
  intro he
  obtain ⟨-, -, hf, hr⟩ := h he
  exact ⟨nofun, nofun, hf, hr⟩

/-- From `s` on no free value has been drawn, stick data has been received, or the PulseBuffer and its selector are those
of `s`. That a draw is never undone (`draws` only grows) makes this a property every operation keeps. -/
def BufferKeptSince (s t : State) : Prop :=
  s.draws ≤ t.draws ∧ (t.everReceived = false → t.draws = s.draws → t.pbuf = s.pbuf ∧ t.psel = s.psel)

theorem bufferKeptSince_refl (s : State) : BufferKeptSince s s := ⟨le_rfl, fun _ _ => ⟨rfl, rfl⟩⟩

theorem bufferKeptSince_keptByRoutine (c : Cfg) (s₀ : State) : KeptByRoutine c (BufferKeptSince s₀) where
  enter s _ h := by rw [bindEnter_eq]; exact h
  restart s _ h := h
  timeout s _ h := by rw [bindTimeout_eq]; exact h
  failsafeFrame s _ _ h := by rw [hopValid_eq]; exact h
  fs s h := by
    rcases fsPhase_cases c s with ⟨-, e⟩ | ⟨he, -, e⟩ <;> rw [e]
    · exact h
    · exact ⟨h.1, fun he' => Bool.noConfusion (he.symm.trans he')⟩
  hop s _ h := by rcases hopPhase_cases c s with ⟨-, e⟩ | ⟨-, -, e⟩ | ⟨-, -, e⟩ <;> rw [e] <;> exact h
  led s h := by rw [ledPhase_eq]; exact h

theorem resetBlock_bufferKeptSince (c : Cfg) (s₀ s : State) (pb : PulseBuffer) (sel : Fin 2) (h : BufferKeptSince s₀ s) :
    BufferKeptSince s₀ (resetBlock c pb sel s) := by
  obtain ⟨_, _, _, _, e⟩ := resetBlock_eq c pb sel s
  have hd : (resetBlock c pb sel s).draws = s.draws + 1 := by rw [e]; rfl
  have hle : s₀.draws ≤ s.draws := h.1
  exact ⟨by omega, fun _ he => by omega⟩

/-- Settles O57: only a stick frame sets Receiving and only the failsafe phase Failsafe, the one receiving stick data and the
other after it; no other operation but RESET's draw writes the PulseBuffer. -/
theorem stepKeepsFailsafeEarned : Obligations.StepKeepsFailsafeEarned := by
  intro s t hp h hs
  have hearned : StatusEarned t := by
    refine (statusEarned_keptByRoutine Config.cfg).step (fun _ _ h => h)
      (fun s r h => bindCommit_statusEarned Config.cfg _ h) (fun s f _ => ?_) (fun s pb sel _ => ?_) hp h hs
    · rw [stickFrame_eq]; exact statusEarned_of_received rfl
    · obtain ⟨_, _, _, _, e⟩ := resetBlock_eq Config.cfg pb sel s
      rw [e]; exact fun _ => ⟨nofun, nofun, nofun, nofun⟩
  have hbuffer : BufferKeptSince s t := by
    refine (bufferKeptSince_keptByRoutine Config.cfg s).step (fun _ _ h => h) (fun u r h => ?_) (fun u f h => ?_)
      (resetBlock_bufferKeptSince Config.cfg s) hp (bufferKeptSince_refl s) hs
    · rw [bindCommit_eq]; exact h
    · rw [stickFrame_eq]; exact ⟨h.1, nofun⟩
  exact ⟨hearned, hbuffer.2⟩

end Sys2Proof.Machine
end

section
/-! PROOFS. The step lemma for the countdowns and the receive queue (spec/10_state.md R44, R46). -/

namespace Sys2Proof.Machine

/-- The countdowns within their reloads and the queue within its depth, kept together as one invariant. -/
def Bounded (c : Cfg) (s : State) : Prop := CountdownsBounded c s ∧ QueueBounded c s

theorem countdownsBounded_zero (c : Cfg) {s : State} (hf : s.fsTimer = 0) (hb : s.bindTimer = 0) (hl : s.blinkTimer = 0) :
    CountdownsBounded c s := by
  simp [CountdownsBounded, hf, hb, hl]

theorem queueBounded_empty (c : Cfg) {s : State} (h : s.rxq = []) : QueueBounded c s := by
  simp [QueueBounded, h]

/-- An arriving frame finds a place below the depth, since a full queue loses it (R96). -/
theorem queueBounded_receive (c : Cfg) (s : State) (f : Frame) (hn : s.rxq.length ≠ c.rxQueueDepth)
    (h : QueueBounded c s) : QueueBounded c { s with rxq := s.rxq ++ [f] } := by
  have hle : s.rxq.length ≤ c.rxQueueDepth := h
  have hlen : (s.rxq ++ [f]).length = s.rxq.length + 1 := List.length_append
  exact (show (s.rxq ++ [f]).length ≤ c.rxQueueDepth by omega)

theorem tickPhase_countdownsBounded (c : Cfg) (s : State) (b : Bool) (h : CountdownsBounded c s) :
    CountdownsBounded c (tickPhase b s) := by
  obtain ⟨hf, hb, hl⟩ := h
  rw [tickPhase_eq]
  exact ⟨(Nat.sub_le _ 1).trans hf, (Nat.sub_le _ 1).trans hb, (Nat.sub_le _ 1).trans hl⟩

/-- The LED phase reloads the blink countdown with the period of the status it sets the LED for (R141). -/
theorem ledPhase_countdownsBounded (c : Cfg) (s : State) (h : CountdownsBounded c s) :
    CountdownsBounded c (ledPhase c s) := by
  obtain ⟨hf, hb, hl⟩ := h
  unfold ledPhase
  split
  · refine ⟨hf, hb, ?_⟩
    show (if s.status = .receiving then 0 else c.blinkPeriod s.status) ≤ c.blinkPeriod s.status
    split
    · exact Nat.zero_le _
    · exact le_rfl
  · rename_i hlast
    have hlast : s.ledLast = some s.status := not_not.mp hlast
    split
    · exact ⟨hf, hb, hl⟩
    · split
      · refine ⟨hf, hb, ?_⟩
        simp only [hlast, le_refl]
      · exact ⟨hf, hb, hl⟩

theorem ledPhase_rxq (c : Cfg) (s : State) : (ledPhase c s).rxq = s.rxq := by rw [ledPhase_eq]

theorem bounded_keptByRoutine (c : Cfg) : KeptByRoutine c (Bounded c) where
  queue s q hq h := ⟨h.1, hq.trans h.2⟩
  receive s f _ hn h := ⟨h.1, queueBounded_receive c s f hn h.2⟩
  enter s _ h := by
    obtain ⟨⟨hf, -, hl⟩, -⟩ := h
    rw [bindEnter_eq]
    exact ⟨⟨hf, le_rfl, hl⟩, queueBounded_empty c rfl⟩
  restart s _ h := by
    obtain ⟨⟨hf, -, hl⟩, -⟩ := h
    rw [bindRestart, armBeacon_eq]
    exact ⟨⟨hf, le_rfl, hl⟩, queueBounded_empty c rfl⟩
  timeout s _ h := by rw [bindTimeout_eq]; exact ⟨h.1, queueBounded_empty c rfl⟩
  failsafeFrame s _ _ h := by rw [hopValid_eq]; exact h
  fs s h := by rcases fsPhase_cases c s with ⟨-, e⟩ | ⟨-, -, e⟩ <;> rw [e] <;> exact h
  hop s _ h := by
    rcases hopPhase_cases c s with ⟨-, e⟩ | ⟨-, -, e⟩ | ⟨-, -, e⟩ <;> rw [e]
    · exact h
    · exact ⟨h.1, queueBounded_empty c rfl⟩
    · exact h
  led s h := by
    refine ⟨ledPhase_countdownsBounded c s h.1, ?_⟩
    rw [QueueBounded, ledPhase_rxq]
    exact h.2

theorem stickFrame_bounded (c : Cfg) (s : State) (f : Frame) (h : Bounded c s) : Bounded c (stickFrame c f s) := by
  obtain ⟨⟨-, hb, hl⟩, hq⟩ := h
  rw [stickFrame_eq]
  exact ⟨⟨le_rfl, hb, hl⟩, hq⟩

theorem resetBlock_bounded (c : Cfg) (s : State) (pb : PulseBuffer) (sel : Fin 2) : Bounded c (resetBlock c pb sel s) := by
  obtain ⟨_, _, _, _, e⟩ := resetBlock_eq c pb sel s
  rw [e]
  exact ⟨countdownsBounded_zero c rfl rfl rfl, queueBounded_empty c rfl⟩

/-! ### The width of a countdown -/

theorem blinkPeriod_le_largestReload (c : Cfg) (st : LinkStatus) : c.blinkPeriod st ≤ c.largestReload := by
  have hidle : c.blinkPeriod .idle ≤ c.largestReload := (le_max_left _ _).trans (le_max_right _ _)
  cases st
  case idle => exact hidle
  case receiving => exact Nat.zero_le _
  case failsafe => exact (le_max_right _ _).trans (le_max_right _ _)
  case binding => exact (Nat.le_add_right _ _).trans hidle

theorem lt_two_pow_counterWidth (c : Cfg) {n : Nat} (h : n ≤ c.largestReload) : n < 2 ^ c.counterWidth :=
  calc n ≤ c.largestReload := h
    _ < 2 ^ (Nat.log2 c.largestReload + 1) := Nat.lt_log2_self
    _ ≤ 2 ^ c.counterWidth := Nat.pow_le_pow_right (by decide) (Nat.le_add_right _ _)

theorem countdownsBounded_width (c : Cfg) (s : State) (h : CountdownsBounded c s) :
    s.fsTimer < 2 ^ c.counterWidth ∧ s.bindTimer < 2 ^ c.counterWidth ∧ s.blinkTimer < 2 ^ c.counterWidth := by
  obtain ⟨hf, hb, hl⟩ := h
  have hblink : s.blinkTimer ≤ c.largestReload := by
    rcases hlast : s.ledLast with _ | st <;> rw [hlast] at hl
    · exact hl.trans (Nat.zero_le _)
    · exact hl.trans (blinkPeriod_le_largestReload c st)
  exact ⟨lt_two_pow_counterWidth c (hf.trans ((le_max_left _ _).trans (le_max_left _ _))),
    lt_two_pow_counterWidth c (hb.trans ((le_max_right _ _).trans (le_max_left _ _))), lt_two_pow_counterWidth c hblink⟩

/-- Settles O59: a countdown is decremented or reloaded, the queue only shrinks but for a frame that arrives below the depth,
and every reload fits the width. -/
theorem stepKeepsCountdownsAndQueueBounded : Obligations.StepKeepsCountdownsAndQueueBounded := by
  refine ⟨fun s t hp hcd hq hs => ?_, countdownsBounded_width Config.cfg⟩
  refine (bounded_keptByRoutine Config.cfg).step (fun s b h => ⟨tickPhase_countdownsBounded _ s b h.1, h.2⟩)
    (fun s r h => ?_) (fun s f h => stickFrame_bounded Config.cfg s f h)
    (fun s pb sel _ => resetBlock_bounded Config.cfg s pb sel) hp ⟨hcd, hq⟩ hs
  rw [bindCommit_eq]
  exact ⟨h.1, queueBounded_empty Config.cfg rfl⟩

end Sys2Proof.Machine
end

section
/-! PROOFS. The stored record and the live configuration change only at a commit (spec/41_bind_handshake.md R107, R108,
spec/10_state.md R34, R47) or at RESET. -/

namespace Sys2Proof.Machine

/-- From s to t the stored record and the live configuration are kept, and the trace gains no NV_SAVE. -/
def KeepsConfig (s t : State) : Prop :=
  t.nv = s.nv ∧ t.modelAddr = s.modelAddr ∧ t.hopSeq = s.hopSeq ∧ t.variant = s.variant ∧
    ∃ es, t.trace = s.trace ++ es ∧ ∀ r, .cmd (.nvSave r) ∉ es

/-- The live configuration is the parse of a record (R108). -/
def IsParse (r : BindRecord) (t : State) : Prop :=
  (∀ j : Fin 5, t.modelAddr[j] = r[j.val]) ∧ (∀ j : Fin 20, t.hopSeq[j] = r[5 + j.val]) ∧
    t.variant = if r[25] = 0xAB#8 then .ch4 else .ch3

/-- From s to t a record was saved, and it is the stored one and the live configuration its parse. -/
def StoresConfig (s t : State) : Prop :=
  ∃ r, t.nv = some r ∧ IsParse r t ∧ ∃ es, t.trace = s.trace ++ es ∧ .cmd (.nvSave r) ∈ es

theorem KeepsConfig.refl (s : State) : KeepsConfig s s := ⟨rfl, rfl, rfl, rfl, [], by simp, by simp⟩

theorem KeepsConfig.trans {s t u : State} (h : KeepsConfig s t) (h' : KeepsConfig t u) : KeepsConfig s u := by
  obtain ⟨hn, ha, hh, hv, es, ht, hes⟩ := h
  obtain ⟨hn', ha', hh', hv', es', ht', hes'⟩ := h'
  refine ⟨hn'.trans hn, ha'.trans ha, hh'.trans hh, hv'.trans hv, es ++ es', by rw [ht', ht, List.append_assoc], ?_⟩
  intro r hr
  exact (List.mem_append.mp hr).elim (hes r) (hes' r)

theorem StoresConfig.keeps_trans {s t u : State} (h : KeepsConfig s t) (h' : StoresConfig t u) : StoresConfig s u := by
  obtain ⟨-, -, -, -, es, ht, -⟩ := h
  obtain ⟨r, hn, hp, es', ht', hr⟩ := h'
  exact ⟨r, hn, hp, es ++ es', by rw [ht', ht, List.append_assoc], List.mem_append_right es hr⟩

theorem StoresConfig.trans_keeps {s t u : State} (h : StoresConfig s t) (h' : KeepsConfig t u) : StoresConfig s u := by
  obtain ⟨r, hn, ⟨ha, hh, hv⟩, es, ht, hr⟩ := h
  obtain ⟨hn', ha', hh', hv', es', ht', -⟩ := h'
  exact ⟨r, hn'.trans hn, ⟨by rwa [ha'], by rwa [hh'], hv'.trans hv⟩, es ++ es', by rw [ht', ht, List.append_assoc],
    List.mem_append_left es' hr⟩

theorem bindCommit_storesConfig (c : Cfg) (s : State) : StoresConfig s (bindCommit c s) := by
  rw [bindCommit_eq]
  exact ⟨s.bindRec, rfl, ⟨by simp [recordAddress], by simp [recordHops], rfl⟩, _, rfl, by simp⟩

theorem keepsConfig_keptByRoutine (c : Cfg) (s₀ : State) : KeptByRoutine c (KeepsConfig s₀) where
  record s e he h := h.trans ⟨rfl, rfl, rfl, rfl, [e], rfl, fun r hr => he r (List.mem_singleton.mp hr).symm⟩
  enter s _ h := by rw [bindEnter_eq]; exact h.trans ⟨rfl, rfl, rfl, rfl, _, rfl, by simp⟩
  restart s _ h := by rw [bindRestart, armBeacon_eq]; exact h.trans ⟨rfl, rfl, rfl, rfl, _, rfl, by simp⟩
  timeout s _ h := by rw [bindTimeout_eq]; exact h.trans ⟨rfl, rfl, rfl, rfl, _, rfl, by simp⟩
  failsafeFrame s _ _ h := by rw [hopValid_eq]; exact h.trans ⟨rfl, rfl, rfl, rfl, _, rfl, by simp⟩
  fs s h := by
    rcases fsPhase_cases c s with ⟨-, e⟩ | ⟨-, -, e⟩ <;> rw [e]
    · exact h
    · exact h.trans ⟨rfl, rfl, rfl, rfl, _, rfl, fun r => by split <;> simp⟩
  hop s _ h := by
    rcases hopPhase_cases c s with ⟨-, e⟩ | ⟨-, -, e⟩ | ⟨-, -, e⟩ <;> rw [e]
    · exact h
    · exact h.trans ⟨rfl, rfl, rfl, rfl, _, rfl, by simp⟩
    · exact h.trans ⟨rfl, rfl, rfl, rfl, _, rfl, by simp⟩
  led s h := by rw [ledPhase_eq]; exact h
  pulse s _ _ _ _ es hes h := h.trans ⟨rfl, rfl, rfl, rfl, es, rfl, hes⟩

theorem stickFrame_keepsConfig (c : Cfg) (s : State) (f : Frame) : KeepsConfig s (stickFrame c f s) := by
  rw [stickFrame_eq]; exact ⟨rfl, rfl, rfl, rfl, _, rfl, by simp⟩

/-- A session that the button phase begins waits with the radio flag clear (R100, R101): so a session with the flag set was
there before. -/
theorem buttonPhase_session (c : Cfg) (s : State) (hs : (buttonPhase c s).bindStage ≠ .idle)
    (hr : (buttonPhase c s).radioFlag = true) : s.bindStage ≠ .idle := by
  rcases buttonPhase_cases c s with ⟨-, e⟩ | ⟨-, -, e⟩ | ⟨-, h, -⟩ | ⟨-, h, -⟩
  · rwa [e] at hs
  · rw [e, bindEnter_eq] at hr; cases hr
  · exact h
  · exact h

/-- The bind phase keeps the configuration or, in a session with the radio flag set, ends the session by a commit. -/
theorem bindPhase_config (c : Cfg) (s : State) :
    KeepsConfig s (bindPhase c s) ∨
      (s.bindStage ≠ .idle ∧ s.radioFlag = true ∧ (bindPhase c s).bindStage = .idle ∧
        StoresConfig s (bindPhase c s)) := by
  rcases (keepsConfig_keptByRoutine c s).bindPhase_or_commit s (.refl s) with h | ⟨hs, hr, hcommit⟩
  · exact .inl h
  · refine .inr ⟨hs, hr, hcommit.bindStage, ?_⟩
    obtain ⟨u, r, hu, e⟩ := hcommit
    rw [e]
    exact .keeps_trans hu (bindCommit_storesConfig c { u with bindRec := r })

/-- The phases after the bind phase keep the configuration. -/
theorem dataPhases_keepsConfig (c : Cfg) (s : State) (hi : s.bindStage = .idle) : KeepsConfig s (dataPhases c s) :=
  have hk := keepsConfig_keptByRoutine c s
  have hrx : KeepsConfig s (rxPhase c s) := hk.rxPhase (fun u f h => h.trans (stickFrame_keepsConfig c u f)) s hi (.refl s)
  hk.hop _ ((fsPhase_stage c _).trans (rxPhase_stage c s hi)) (hk.fs _ hrx)

theorem dataPhases_stage (c : Cfg) (s : State) (hi : s.bindStage = .idle) : (dataPhases c s).bindStage = .idle := by
  have hfs : (fsPhase c (rxPhase c s)).bindStage = .idle := (fsPhase_stage c _).trans (rxPhase_stage c s hi)
  unfold dataPhases
  rcases hopPhase_cases c (fsPhase c (rxPhase c s)) with ⟨-, e⟩ | ⟨-, -, e⟩ | ⟨-, -, e⟩ <;> rw [e] <;> exact hfs

theorem ledPhase_keepsConfig (c : Cfg) (s : State) : KeepsConfig s (ledPhase c s) :=
  (keepsConfig_keptByRoutine c s).led s (.refl s)

/-- A dispatch keeps the configuration or ends a session by a commit (R94, R107). -/
theorem dispatch_config (c : Cfg) (b : Bool) (s : State) :
    KeepsConfig s (dispatch c b s) ∨
      (s.bindStage ≠ .idle ∧ (dispatch c b s).bindStage = .idle ∧ StoresConfig s (dispatch c b s)) := by
  have htick : KeepsConfig s (tickPhase b s) := .refl s
  have hbutton : KeepsConfig s (buttonPhase c (tickPhase b s)) := (keepsConfig_keptByRoutine c s).buttonPhase _ htick
  have hrest : ∀ u, KeepsConfig u (ledPhase c (if u.bindStage = .idle then dataPhases c u else u)) := by
    intro u
    refine .trans ?_ (ledPhase_keepsConfig c _)
    split
    · exact dataPhases_keepsConfig c u (by assumption)
    · exact .refl u
  rcases bindPhase_config c (buttonPhase c (tickPhase b s)) with h | ⟨hs, hr, hi, h⟩
  · exact .inl ((hbutton.trans h).trans (hrest _))
  · refine .inr ⟨buttonPhase_session c (tickPhase b s) hs hr, ?_, .trans_keeps (.keeps_trans hbutton h) (hrest _)⟩
    simp only [dispatch, hi, if_true]
    rw [ledPhase_eq]
    exact dataPhases_stage c _ hi

/-- Every event but RESET keeps the configuration or ends a session by a commit. -/
theorem step_config {s t : State} {i : Instr} {rest : List Byte} (hp : s.port = .event)
    (hd : decodeEvent s.input = .ok (i, rest)) (hr : i ≠ .reset) (h : step s = .next t) :
    KeepsConfig s t ∨ (s.bindStage ≠ .idle ∧ t.bindStage = .idle ∧ StoresConfig s t) := by
  rcases step_event hp hd h with ⟨e, -⟩ | ⟨b, -, rfl⟩ | hrest
  · exact absurd e hr
  · exact dispatch_config Config.cfg b { s with input := rest, port := .event }
  · exact .inl (hrest _ (keepsConfig_keptByRoutine Config.cfg s) (.refl s))

theorem gained_of_trace {s t : State} {es : List TraceEntry} (h : t.trace = s.trace ++ es) : gained s t = es := by
  rw [gained, h, List.drop_left]

/-- Settles O51: an event's operations but the commit write neither the record nor the live configuration. -/
theorem configurationChangesOnlyAtCommit : Obligations.ConfigurationChangesOnlyAtCommit := by
  intro s t i rest hp hd hr h
  rcases step_config hp hd hr h with ⟨hn, ha, hh, hv, es, ht, hes⟩ | ⟨hs, hi, r, hn, ⟨ha, hh, hv⟩, es, ht, hmem⟩
  · refine .inl ⟨hn, ha, hh, hv, ?_⟩
    rwa [gained_of_trace ht]
  · refine .inr ⟨hs, hi, r, hn, ?_, ha, hh, hv⟩
    rwa [gained_of_trace ht]

end Sys2Proof.Machine
end

section
/-! PROOFS. Between two events the block listens, its live configuration is the stored record's, and the radio is tuned to what
it receives (spec/10_state.md R34, spec/41_bind_handshake.md R100, R109, spec/42_hop_scheduler.md R115). -/

namespace Sys2Proof.Machine

/-! ### The live configuration is the stored one -/

theorem configStored_of_keeps {s t : State} (h : KeepsConfig s t) (hs : ConfigStored s) : ConfigStored t := by
  obtain ⟨hn, ha, hh, hv, -⟩ := h
  rw [ConfigStored, hn, ha, hh, hv]
  exact hs

theorem configStored_of_parse {r : BindRecord} {t : State} (hn : t.nv = some r) (h : IsParse r t) : ConfigStored t := by
  rw [ConfigStored, hn]; exact h

theorem configStored_of_stores {s t : State} (h : StoresConfig s t) : ConfigStored t := by
  obtain ⟨r, hn, hp, -⟩ := h
  exact configStored_of_parse hn hp

/-- The boot's load (R186), whatever is stored. -/
theorem bootConfig_stored (s : State) : ConfigStored (bootConfig s) := by
  rcases hnv : s.nv with _ | r
  · have e : bootConfig s = raise .noRecord .nothing
        { s with modelAddr := Vector.replicate 5 0#8, hopSeq := Vector.replicate 20 0#8, variant := .ch3 } := by
      simp only [bootConfig, nvLoad, hnv]
    rw [e, ConfigStored, raise_nv, hnv]
    exact ⟨by simp, by simp, rfl⟩
  · have e : bootConfig s = bindParse r s := by simp only [bootConfig, nvLoad, hnv]
    rw [e]
    exact configStored_of_parse hnv ⟨by simp [bindParse, recordAddress], by simp [bindParse, recordHops], rfl⟩

theorem rearm_keepsConfig (c : Cfg) (s : State) : KeepsConfig s (rearm c s) := by
  rw [rearm_eq]; exact ⟨rfl, rfl, rfl, rfl, _, rfl, by simp⟩

theorem resetBlock_configStored (c : Cfg) (pb : PulseBuffer) (sel : Fin 2) (s : State) :
    ConfigStored (resetBlock c pb sel s) := by
  have hinit : ∀ u b v, KeepsConfig u (emit c .radioInit { u with fsEnabled := b, fsValues := v }) :=
    fun u b v => ⟨rfl, rfl, rfl, rfl, _, rfl, by simp⟩
  exact configStored_of_keeps ((hinit _ _ _).trans (rearm_keepsConfig c _)) (bootConfig_stored (resetFields pb sel s))

theorem step_configStored {s t : State} (hp : s.port = .event) (hc : ConfigStored s) (h : step s = .next t) :
    ConfigStored t := by
  obtain ⟨i, rest, hd⟩ := decodeEvent_of_step hp h
  by_cases hi : i = .reset
  · subst hi
    rw [step_eq_exec hp hd] at h
    obtain rfl := Host.Outcome.next.inj h
    exact resetBlock_configStored _ _ _ _
  · rcases step_config hp hd hi h with hk | ⟨-, -, hst⟩
    · exact configStored_of_keeps hk hc
    · exact configStored_of_stores hst

/-! ### No bind request is left over -/

theorem noRequest_keptByRoutine (c : Cfg) : KeptByRoutine c (fun s => s.bindRequest = false) where
  request s _ := rfl
  enter s _ h := by rw [bindEnter_eq]; exact h
  restart s _ h := h
  timeout s _ h := by rw [bindTimeout_eq]; exact h
  failsafeFrame s _ _ h := by rw [hopValid_eq]; exact h
  fs s h := by rcases fsPhase_cases c s with ⟨-, e⟩ | ⟨-, -, e⟩ <;> rw [e] <;> exact h
  hop s _ h := by rcases hopPhase_cases c s with ⟨-, e⟩ | ⟨-, -, e⟩ | ⟨-, -, e⟩ <;> rw [e] <;> exact h
  led s h := by rw [ledPhase_eq]; exact h

/-- The button phase consumes the request whatever it does with it (R43, R95). -/
theorem buttonPhase_noRequest (c : Cfg) (s : State) : (buttonPhase c s).bindRequest = false := by
  rcases buttonPhase_cases c s with ⟨h, e⟩ | ⟨-, -, e⟩ | ⟨-, -, -, e⟩ | ⟨-, -, -, e⟩ <;> rw [e]
  · exact h
  · rw [bindEnter_eq]
  · rw [bindRestart, armBeacon_eq]

theorem dispatch_noRequest (c : Cfg) (s : State) (b : Bool) : (dispatch c b s).bindRequest = false :=
  (noRequest_keptByRoutine c).dispatch_of_button (fun s r h => by rw [bindCommit_eq]; exact h)
    (fun s f h => by rw [stickFrame_eq]; exact h) s b (buttonPhase_noRequest c _)

theorem step_noRequest {s t : State} (hp : s.port = .event) (hr : s.bindRequest = false) (h : step s = .next t) :
    t.bindRequest = false := by
  obtain ⟨i, rest, hd⟩ := decodeEvent_of_step hp h
  rcases step_event hp hd h with ⟨-, rfl⟩ | ⟨b, -, rfl⟩ | hrest
  · obtain ⟨_, _, _, _, e⟩ := resetBlock_eq Config.cfg (Config.pulseBufferDraw s.draws) (Config.selectorDraw s.draws)
      { s with input := rest, port := .event }
    rw [e]; rfl
  · exact dispatch_noRequest Config.cfg _ b
  · exact hrest _ (noRequest_keptByRoutine Config.cfg) hr

/-! ### The radio listens where it should -/

theorem radioTuned_idle_iff (c : Cfg) {s : State} (hi : s.bindStage = .idle) :
    RadioTuned c s ↔
      s.radioAddr = s.modelAddr ∧ ∀ h : s.hopIndex.toNat < 20, s.radioChannel = s.hopSeq[s.hopIndex.toNat] := by
  rw [RadioTuned, if_pos hi]

theorem radioTuned_session_iff (c : Cfg) {s : State} (hs : s.bindStage ≠ .idle) :
    RadioTuned c s ↔ s.radioAddr = c.beaconAddr ∧ s.radioChannel = c.beaconChannel := by
  rw [RadioTuned, if_neg hs]

/-- The radio on the live address and the first channel, with the hop index there (R109, R116). -/
theorem radioTuned_first (c : Cfg) {s : State} (hi : s.bindStage = .idle) (ha : s.radioAddr = s.modelAddr)
    (h0 : s.hopIndex = 0#5) (hc : s.radioChannel = s.hopSeq[0]) : RadioTuned c s :=
  (radioTuned_idle_iff c hi).mpr ⟨ha, fun _ => by simp [h0, hc]⟩

/-- The radio listens on what the block receives, and the next word is an event. -/
def Listens (c : Cfg) (s : State) : Prop := s.port = .event ∧ s.radioCe = true ∧ RadioTuned c s

theorem bindEnter_listens (c : Cfg) (s : State) (h : Listens c s) : Listens c (bindEnter c s) := by
  obtain ⟨hp, -, -⟩ := h
  rw [bindEnter_eq]
  exact ⟨hp, rfl, (radioTuned_session_iff c (by simp)).mpr ⟨rfl, rfl⟩⟩

theorem bindRestart_listens (c : Cfg) (s : State) (h : Listens c s) : Listens c (bindRestart c s) := by
  obtain ⟨hp, -, -⟩ := h
  rw [bindRestart, armBeacon_eq]
  exact ⟨hp, rfl, (radioTuned_session_iff c (by simp)).mpr ⟨rfl, rfl⟩⟩

theorem bindTimeout_listens (c : Cfg) (s : State) (h : Listens c s) : Listens c (bindTimeout c s) := by
  obtain ⟨hp, -, -⟩ := h
  rw [bindTimeout_eq]
  exact ⟨hp, rfl, radioTuned_first c rfl rfl rfl rfl⟩

theorem bindCommit_listens (c : Cfg) (s : State) (h : Listens c s) : Listens c (bindCommit c s) := by
  obtain ⟨hp, -, -⟩ := h
  rw [bindCommit_eq]
  exact ⟨hp, rfl, radioTuned_first c rfl rfl rfl rfl⟩

/-- The hop phase tunes the radio to the channel of the index it leaves (R115, R116). -/
theorem hopPhase_listens (c : Cfg) (s : State) (hi : s.bindStage = .idle) (h : Listens c s) :
    Listens c (hopPhase c s) := by
  obtain ⟨hp, hce, ht⟩ := h
  obtain ⟨ha, hc⟩ := (radioTuned_idle_iff c hi).mp ht
  rcases hopPhase_cases c s with ⟨-, e⟩ | ⟨-, -, e⟩ | ⟨-, -, e⟩ <;> rw [e]
  · exact ⟨hp, hce, ht⟩
  · exact ⟨hp, hce, radioTuned_first c hi ha rfl rfl⟩
  · exact ⟨hp, hce, (radioTuned_idle_iff c (by exact hi)).mpr ⟨ha, hopChannel_of_lt s.hopSeq⟩⟩

theorem listens_keptByRoutine (c : Cfg) : KeptByRoutine c (Listens c) where
  input s rest h := ⟨rfl, h.2⟩
  enter s _ h := bindEnter_listens c s h
  restart s _ h := bindRestart_listens c s h
  advance s r k st hs hst h := by
    obtain ⟨hp, hce, ht⟩ := h
    exact ⟨hp, hce, (radioTuned_session_iff c hst).mpr ((radioTuned_session_iff c hs).mp ht)⟩
  timeout s _ h := bindTimeout_listens c s h
  failsafeFrame s _ _ h := by rw [hopValid_eq]; exact h
  fs s h := by rcases fsPhase_cases c s with ⟨-, e⟩ | ⟨-, -, e⟩ <;> rw [e] <;> exact h
  hop s hi h := hopPhase_listens c s hi h
  led s h := by rw [ledPhase_eq]; exact h

theorem resetBlock_listens (c : Cfg) (s : State) (pb : PulseBuffer) (sel : Fin 2) (h : Listens c s) :
    Listens c (resetBlock c pb sel s) := by
  obtain ⟨hp, -, -⟩ := h
  obtain ⟨_, _, _, _, e⟩ := resetBlock_eq c pb sel s
  rw [e]
  exact ⟨hp, rfl, radioTuned_first c rfl rfl rfl rfl⟩

theorem step_listens {s t : State} (h : Listens Config.cfg s) (hs : step s = .next t) : Listens Config.cfg t :=
  (listens_keptByRoutine Config.cfg).step (fun _ _ h => h) (fun s r h => bindCommit_listens Config.cfg _ h)
    (fun s f h => by rw [stickFrame_eq]; exact h) (resetBlock_listens Config.cfg) h.1 h hs

/-- Settles O60: the configuration, the button's request and the radio's tuning, each kept by every step. -/
theorem stepKeepsRadioTuned : Obligations.StepKeepsRadioTuned := by
  rintro s t ⟨hp, hr, hce⟩ hc ht h
  obtain ⟨hp', hce', ht'⟩ := step_listens ⟨hp, hce, ht⟩ h
  exact ⟨⟨hp', step_noRequest hp hr h, hce'⟩, step_configStored hp hc h, ht'⟩

end Sys2Proof.Machine
end

section
/-! PROOFS. `ever_received` is set by stick data and by nothing else (spec/10_state.md R37); the radio's own events
(spec/40_dispatch.md R96, R97); and the state after reset is safe (R48, R184). -/

namespace Sys2Proof.Machine

/-! ### Stick data sets `ever_received` -/

/-- A stick frame of the variant stands last in the queue with the radio flag set, outside a session: what the receiver takes
for stick data (R119, R121). -/
def StickWaits (c : Cfg) (s : State) : Prop :=
  s.bindStage = .idle ∧ s.radioFlag = true ∧ ∃ f, s.rxq.getLast? = some f ∧ f[7] = c.stickId s.variant

theorem everReceived_keptByRoutine (c : Cfg) (r : Bool) : KeptByRoutine c (fun s => s.everReceived = r) where
  enter s _ h := by rw [bindEnter_eq]; exact h
  restart s _ h := h
  timeout s _ h := by rw [bindTimeout_eq]; exact h
  failsafeFrame s _ _ h := by rw [hopValid_eq]; exact h
  fs s h := by rcases fsPhase_cases c s with ⟨-, e⟩ | ⟨-, -, e⟩ <;> rw [e] <;> exact h
  hop s _ h := by rcases hopPhase_cases c s with ⟨-, e⟩ | ⟨-, -, e⟩ | ⟨-, -, e⟩ <;> rw [e] <;> exact h
  led s h := by rw [ledPhase_eq]; exact h

theorem stickFrame_everReceived (c : Cfg) (f : Frame) (s : State) : (stickFrame c f s).everReceived = true := by
  rw [stickFrame_eq]

theorem bindCommit_everReceived (c : Cfg) (s : State) : (bindCommit c s).everReceived = s.everReceived := by
  rw [bindCommit_eq]

/-- A session begun or restarted in the button phase is no data mode: data mode after it was there before. -/
theorem buttonPhase_of_idle (c : Cfg) (s : State) (hi : (buttonPhase c s).bindStage = .idle) :
    s.bindStage = .idle ∧ buttonPhase c s = s := by
  rcases buttonPhase_cases c s with ⟨-, e⟩ | ⟨-, -, e⟩ | ⟨-, hs, -, e⟩ | ⟨-, -, -, e⟩
  · exact ⟨e ▸ hi, e⟩
  · rw [e, bindEnter_eq] at hi; cases hi
  · rw [e] at hi; exact absurd hi hs
  · rw [e] at hi; cases hi

/-- A session that the bind drain ends was ended by a commit, which clears the radio flag (R107, R109). -/
theorem bindDrain_radioFlag (c : Cfg) (n : Nat) (s : State) (hs : s.bindStage ≠ .idle)
    (hi : (bindDrain c n s).bindStage = .idle) : (bindDrain c n s).radioFlag = false := by
  refine bindDrain_induction c (P := fun t => t.bindStage = .idle → t.radioFlag = false) (fun _ h => h)
    (fun s f q hs _ _ => ?_) n s hs (fun h => absurd h hs) hi
  rcases handleFrame_bind c f { s with rxq := q } hs with ⟨-, e⟩ | ⟨-, e⟩ | ⟨-, e⟩ | ⟨-, e⟩ | e <;> rw [e]
  · exact nofun
  · exact nofun
  · exact nofun
  · rw [bindBlock3_eq, bindCommit_eq]; exact fun _ => rfl
  · exact fun h => absurd h hs

/-- The data phases that find the radio flag set run in a dispatch that was outside a session from its start: a session that
ends in it, by commit or timeout, re-arms the receiver with the flag clear (R109, R110). -/
theorem bindPhase_of_idle (c : Cfg) (s : State) (hi : (bindPhase c s).bindStage = .idle)
    (hr : (bindPhase c s).radioFlag = true) : s.bindStage = .idle ∧ bindPhase c s = s := by
  rcases bindPhase_cases c s with ⟨h, e⟩ | ⟨-, -, e⟩ | ⟨hs, -, -, e⟩ | ⟨hs, -, -, e⟩
  · exact ⟨h, e⟩
  · rw [e, bindTimeout_eq] at hr; cases hr
  · rw [e] at hi; exact absurd hi hs
  · rw [e] at hi hr
    have hclear := bindDrain_radioFlag c _ { s with radioFlag := false } hs hi
    exact Bool.noConfusion (hclear.symm.trans hr)

/-- In data mode only a stick frame sets `ever_received` (R121 to R123). -/
theorem handleFrame_everReceived (c : Cfg) (f : Frame) (s : State) (hi : s.bindStage = .idle)
    (he : s.everReceived = false) (h : (handleFrame c f s).everReceived = true) : f[7] = c.stickId s.variant := by
  rcases handleFrame_data c f s hi with ⟨h7, -⟩ | ⟨-, e | e | e⟩
  · exact h7
  · rw [e, failsafeEnableFrame_eq] at h; exact Bool.noConfusion (he.symm.trans h)
  · rw [e, failsafeDisableFrame_eq] at h; exact Bool.noConfusion (he.symm.trans h)
  · rw [e, unknownFrame, raise_everReceived] at h; exact Bool.noConfusion (he.symm.trans h)

/-- The receiver phase sets `ever_received` only on a stick frame (R119). -/
theorem rxPhase_everReceived (c : Cfg) (s : State) (hi : s.bindStage = .idle) (he : s.everReceived = false)
    (h : (rxPhase c s).everReceived = true) : StickWaits c s := by
  rcases hr : s.radioFlag
  · rw [rxPhase_idle c s hr] at h
    exact Bool.noConfusion (he.symm.trans h)
  · rw [rxPhase_eq c s hr] at h
    rcases hq : s.rxq.getLast? with _ | f <;> rw [hq] at h
    · exact Bool.noConfusion (he.symm.trans h)
    · refine ⟨hi, hr, f, hq, ?_⟩
      exact handleFrame_everReceived c f { s with radioFlag := false, rxq := [], trace := _ } hi he h

/-- The phases after the receiver keep `ever_received`. -/
theorem dataPhases_everReceived (c : Cfg) (s : State) (hi : s.bindStage = .idle) :
    (dataPhases c s).everReceived = (rxPhase c s).everReceived :=
  have hk := everReceived_keptByRoutine c (rxPhase c s).everReceived
  hk.hop _ ((fsPhase_stage c _).trans (rxPhase_stage c s hi)) (hk.fs _ rfl)

/-- A dispatch sets `ever_received` only on a stick frame that waits for its receiver (R37). -/
theorem dispatch_everReceived (c : Cfg) (b : Bool) (s : State) (he : s.everReceived = false)
    (h : (dispatch c b s).everReceived = true) : StickWaits c s := by
  have hk := everReceived_keptByRoutine c false
  have hw : (bindPhase c (buttonPhase c (tickPhase b s))).everReceived = false :=
    hk.bindPhase (fun _ _ h => (bindCommit_everReceived c _).trans h) _ (hk.buttonPhase _ he)
  by_cases hi : (bindPhase c (buttonPhase c (tickPhase b s))).bindStage = .idle
  · have hrx : (rxPhase c (bindPhase c (buttonPhase c (tickPhase b s)))).everReceived = true := by
      rw [← dataPhases_everReceived c _ hi]
      simp only [dispatch, hi, if_true] at h
      rwa [ledPhase_eq] at h
    have hwaits : StickWaits c (bindPhase c (buttonPhase c (tickPhase b s))) := rxPhase_everReceived c _ hi hw hrx
    have ⟨_, hflag, _⟩ := hwaits
    obtain ⟨hu, e⟩ := bindPhase_of_idle c _ hi hflag
    obtain ⟨-, e'⟩ := buttonPhase_of_idle c _ hu
    rw [e, e'] at hwaits
    exact hwaits
  · simp only [dispatch, hi, if_false] at h
    rw [ledPhase_eq] at h
    exact Bool.noConfusion (hw.symm.trans h)

/-- A dispatch never clears `ever_received`. -/
theorem dispatch_keeps_everReceived (c : Cfg) (b : Bool) (s : State) (he : s.everReceived = true) :
    (dispatch c b s).everReceived = true :=
  (everReceived_keptByRoutine c true).dispatch (fun _ _ h => h) (fun _ _ h => (bindCommit_everReceived c _).trans h)
    (fun s f _ => stickFrame_everReceived c f s) s b he

/-- Settles O38: a dispatch sets the flag on a waiting stick frame only and never clears it, and the events that are neither a
dispatch nor RESET leave it alone. -/
theorem everReceivedSetOnlyByStickData : Obligations.EverReceivedSetOnlyByStickData := by
  refine ⟨fun s f => ⟨_, rfl, stickFrame_everReceived Config.cfg f s⟩, fun s t i rest hp hd h => ?_⟩
  rcases step_event hp hd h with ⟨hreset, rfl⟩ | ⟨b, hi, rfl⟩ | hrest
  · obtain ⟨_, _, _, _, e⟩ := resetBlock_eq Config.cfg (Config.pulseBufferDraw s.draws) (Config.selectorDraw s.draws)
      { s with input := rest, port := .event }
    refine ⟨fun _ ht => ?_, fun _ _ => hreset⟩
    rw [e] at ht
    cases ht
  · have hset := dispatch_everReceived Config.cfg b { s with input := rest, port := .event }
    have hkept := dispatch_keeps_everReceived Config.cfg b { s with input := rest, port := .event }
    refine ⟨fun he ht => ?_, fun he ht => Bool.noConfusion ((hkept he).symm.trans ht)⟩
    obtain ⟨hidle, hflag, f, hq, h7⟩ := hset he ht
    exact ⟨hidle, hflag, f, b, hq, h7, hi⟩
  · have hkept : t.everReceived = s.everReceived := hrest _ (everReceived_keptByRoutine Config.cfg s.everReceived) rfl
    exact ⟨fun he ht => Bool.noConfusion ((hkept.trans he).symm.trans ht),
      fun he ht => Bool.noConfusion ((hkept.trans he).symm.trans ht)⟩

/-! ### The radio's events -/

theorem exec_rxf (f : Frame) (s : State) : exec (.rxf f) s = .next (radioReceive Config.cfg f s) := rfl

/-- Settles O48: the two losses of R96, its one queueing, and R97. -/
theorem radioEventsQueueAndFlag : Obligations.RadioEventsQueueAndFlag := by
  intro s f
  refine ⟨fun hlost => ?_, fun hce hn => ?_, rfl⟩
  · rw [exec_rxf]
    rcases radioReceive_cases Config.cfg s f with e | ⟨hce, hn, -⟩
    · rw [e]
    · exact hlost.elim (fun hlow => Bool.noConfusion (hlow.symm.trans hce)) (fun hfull => absurd hfull hn)
  · simp only [exec_rxf, radioReceive, hce, hn, Bool.true_eq_false, if_false]

/-! ### The state after reset -/

/-- Settles O54: the nine invariants at the reset column of spec/10_state.md, with no stored record. -/
theorem resetStateIsSafe : Obligations.ResetStateIsSafe := by
  have hsession : SessionCoherent State.reset := by unfold SessionCoherent; decide
  have hpins : ∀ j : Fin 4, State.reset.pin[j] = false := by decide
  have hconfig : ConfigStored State.reset := ⟨by decide, by decide, rfl⟩
  exact ⟨⟨rfl, rfl, rfl⟩, hopInRange_zero rfl rfl, hsession, fun _ => ⟨nofun, nofun, nofun, nofun⟩, ⟨rfl, hpins⟩,
    countdownsBounded_zero Config.cfg rfl rfl rfl, queueBounded_empty Config.cfg rfl, hconfig,
    radioTuned_first Config.cfg rfl rfl rfl rfl⟩

end Sys2Proof.Machine
end

section
/-! PROOFS. Publishing into the PulseBuffer (spec/43_packet_receiver.md R121, R124): what a stick frame writes, and that one
dispatch publishes at most once, into the slot that is not active (spec/20_memory.md R62, R66; spec/10_state.md R48). -/

namespace Sys2Proof.Machine

/-! ### A stick frame -/

theorem exec_dataStick (f : Frame) (s : State) : exec (.dataStick f) s = .next (stickFrame Config.cfg f s) := rfl

theorem frameChannels_get (f : Frame) (k : Fin 4) : (frameChannels f)[k] = chan f k := by simp [frameChannels]

/-- Channels 0 to 2 are used in both variants (R30). -/
theorem lt_channelCount_of_lt_three {k : Nat} (hk : k < 3) (v : Variant) : k < channelCount v := by
  cases v
  · exact hk
  · exact hk.trans (by decide)

theorem three_lt_channelCount_iff (v : Variant) : 3 < channelCount v ↔ v = .ch4 := by
  cases v <;> decide

/-- Settles O35: the frame is published by R124's rule, whose entry for channel 3 is written in CH4 alone, and the decided
configuration keeps the pending hop request. -/
theorem stickFramePublishesChannels : Obligations.StickFramePublishesChannels := by
  intro s f
  have hslot : ∀ k : Fin 4, (writePulseBuffer (frameChannels f) s).pbuf[1 - s.psel][k] =
      if k.val < channelCount s.variant then chan f k else s.pbuf[1 - s.psel][k] := fun k => by
    rw [writePulseBuffer_written, frameChannels_get]
  have hused : ∀ k : Fin 4, k.val < 3 → (writePulseBuffer (frameChannels f) s).pbuf[1 - s.psel][k] = chan f k :=
    fun k hk => (hslot k).trans (if_pos (lt_channelCount_of_lt_three hk s.variant))
  refine ⟨(writePulseBuffer (frameChannels f) s).pbuf, ?_, writePulseBuffer_keeps_active s _, hused 0 (by decide),
    hused 1 (by decide), hused 2 (by decide), (hslot 3).trans ?_⟩
  · rw [exec_dataStick, stickFrame_eq]
    rfl
  · exact if_congr (three_lt_channelCount_iff s.variant) rfl rfl

/-! ### The pulse unit: the PulseBuffer, its selector and the pulse generator -/

/-- The state of the pulse unit (R40). -/
structure PulseUnit where
  pbuf : PulseBuffer
  psel : Fin 2
  pstate : PulseState
  ptimerRunning : Bool
  ptimerReload : U16
  pin : Vector Bool 4

/-- The pulse unit's part of the block's state. -/
def pulseUnit (s : State) : PulseUnit :=
  { pbuf := s.pbuf, psel := s.psel, pstate := s.pstate, ptimerRunning := s.ptimerRunning, ptimerReload := s.ptimerReload
    pin := s.pin }

/-- One publish (R124): the selector flips, the slot that was active keeps its contents, the generator is untouched. -/
def PublishedOnce (p q : PulseUnit) : Prop :=
  q = { p with pbuf := q.pbuf, psel := otherSlot p.psel } ∧ q.pbuf[p.psel] = p.pbuf[p.psel]

theorem stickFrame_publishedOnce (c : Cfg) (f : Frame) (s : State) :
    PublishedOnce (pulseUnit s) (pulseUnit (stickFrame c f s)) := by
  rw [stickFrame_eq]
  exact ⟨rfl, writePulseBuffer_keeps_active s _⟩

theorem stickFrame_fsTimer_ne_zero (c : Cfg) (f : Frame) (s : State) : (stickFrame c f s).fsTimer ≠ 0 := by
  rw [stickFrame_eq]
  exact Nat.succ_ne_zero _

theorem fsPhase_published (c : Cfg) (s : State) :
    pulseUnit (fsPhase c s) = pulseUnit s ∨ PublishedOnce (pulseUnit s) (pulseUnit (fsPhase c s)) := by
  rcases fsPhase_cases c s with ⟨-, e⟩ | ⟨-, -, e⟩ <;> rw [e]
  · exact .inl rfl
  · exact .inr ⟨rfl, writePulseBuffer_keeps_active s _⟩

/-- The failsafe phase acts only on an expired countdown (R126). -/
theorem fsPhase_running (c : Cfg) (s : State) (h : s.fsTimer ≠ 0) : fsPhase c s = s := by
  rcases fsPhase_cases c s with ⟨-, e⟩ | ⟨-, h0, -⟩
  · exact e
  · exact absurd h0 h

/-! ### The other phases leave the pulse unit alone -/

theorem buttonPhase_pulseUnit (c : Cfg) (s : State) : pulseUnit (buttonPhase c s) = pulseUnit s := by
  rcases buttonPhase_cases c s with ⟨-, e⟩ | ⟨-, -, e⟩ | ⟨-, -, -, e⟩ | ⟨-, -, -, e⟩ <;> rw [e]
  · rw [bindEnter_eq]; rfl
  · rfl
  · rw [bindRestart, armBeacon_eq]; rfl

/-- No frame of a session is published (R104 to R107). -/
theorem handleFrame_session_pulseUnit (c : Cfg) (f : Frame) (s : State) (hs : s.bindStage ≠ .idle) :
    pulseUnit (handleFrame c f s) = pulseUnit s := by
  rcases handleFrame_bind c f s hs with ⟨-, e⟩ | ⟨-, e⟩ | ⟨-, e⟩ | ⟨-, e⟩ | e <;> rw [e]
  · rfl
  · rfl
  · rfl
  · rw [bindBlock3_eq, bindCommit_eq]; rfl
  · rfl

theorem bindPhase_pulseUnit (c : Cfg) (s : State) : pulseUnit (bindPhase c s) = pulseUnit s := by
  rcases bindPhase_cases c s with ⟨-, e⟩ | ⟨-, -, e⟩ | ⟨-, -, -, e⟩ | ⟨hs, -, -, e⟩ <;> rw [e]
  · rw [bindTimeout_eq]; rfl
  · exact bindDrain_induction c (P := fun t => pulseUnit t = pulseUnit s) (fun _ h => h)
      (fun u f q hu _ h => (handleFrame_session_pulseUnit c f { u with rxq := q } hu).trans h) _ _ hs rfl

theorem hopPhase_pulseUnit (c : Cfg) (s : State) : pulseUnit (hopPhase c s) = pulseUnit s := by
  rcases hopPhase_cases c s with ⟨-, e⟩ | ⟨-, -, e⟩ | ⟨-, -, e⟩ <;> rw [e] <;> rfl

theorem ledPhase_pulseUnit (c : Cfg) (s : State) : pulseUnit (ledPhase c s) = pulseUnit s := by
  rw [ledPhase_eq]; rfl

/-! ### One dispatch -/

/-- A frame of data mode publishes only as a stick frame, which reloads the failsafe countdown (R121). -/
theorem handleFrame_data_published (c : Cfg) (f : Frame) (s : State) (hi : s.bindStage = .idle) :
    pulseUnit (handleFrame c f s) = pulseUnit s ∨
      (PublishedOnce (pulseUnit s) (pulseUnit (handleFrame c f s)) ∧ (handleFrame c f s).fsTimer ≠ 0) := by
  rcases handleFrame_data c f s hi with ⟨-, e⟩ | ⟨-, e | e | e⟩ <;> rw [e]
  · exact .inr ⟨stickFrame_publishedOnce c f s, stickFrame_fsTimer_ne_zero c f s⟩
  · rw [failsafeEnableFrame_eq]; exact .inl rfl
  · rw [failsafeDisableFrame_eq]; exact .inl rfl
  · exact .inl rfl

/-- The receiver phase handles one frame at most, so it publishes at most once (R119). -/
theorem rxPhase_published (c : Cfg) (s : State) (hi : s.bindStage = .idle) :
    pulseUnit (rxPhase c s) = pulseUnit s ∨
      (PublishedOnce (pulseUnit s) (pulseUnit (rxPhase c s)) ∧ (rxPhase c s).fsTimer ≠ 0) := by
  rcases hr : s.radioFlag
  · rw [rxPhase_idle c s hr]; exact .inl rfl
  · rw [rxPhase_eq c s hr]
    split
    · exact .inl rfl
    · exact handleFrame_data_published c _ { s with radioFlag := false, rxq := [], trace := _ } hi

/-- The receiver and the failsafe phase do not both publish: the frame that the one publishes keeps the other from acting. -/
theorem dataPhases_published (c : Cfg) (s : State) (hi : s.bindStage = .idle) :
    pulseUnit (dataPhases c s) = pulseUnit s ∨ PublishedOnce (pulseUnit s) (pulseUnit (dataPhases c s)) := by
  rw [dataPhases, hopPhase_pulseUnit]
  rcases rxPhase_published c s hi with hkept | ⟨hpub, hrun⟩
  · rw [← hkept]; exact fsPhase_published c _
  · rw [fsPhase_running c _ hrun]; exact .inr hpub

theorem dispatch_published (c : Cfg) (b : Bool) (s : State) :
    pulseUnit (dispatch c b s) = pulseUnit s ∨ PublishedOnce (pulseUnit s) (pulseUnit (dispatch c b s)) := by
  have hbind : pulseUnit (bindPhase c (buttonPhase c (tickPhase b s))) = pulseUnit s :=
    (bindPhase_pulseUnit c _).trans (buttonPhase_pulseUnit c (tickPhase b s))
  simp only [dispatch, ledPhase_pulseUnit]
  rw [← hbind]
  split
  · exact dataPhases_published c _ (by assumption)
  · exact .inl rfl

theorem exec_tick (b : Bool) (s : State) : exec (.tick b) s = .next (dispatch Config.cfg b s) := rfl

/-- Settles O45: a dispatch leaves the whole pulse unit as it was or publishes once, and a publish flips the selector. -/
theorem dispatchNeverTearsActiveSlot : Obligations.DispatchNeverTearsActiveSlot := by
  intro s b
  refine ⟨_, exec_tick b s, ?_⟩
  rcases dispatch_published Config.cfg b s with h | ⟨h, hactive⟩
  · obtain ⟨hbuf, -, hstate, hrun, hreload, hpin⟩ := PulseUnit.mk.inj h
    exact ⟨by rw [hbuf], fun _ => hbuf, hstate, hpin, hrun, hreload⟩
  · obtain ⟨-, hsel, hstate, hrun, hreload, hpin⟩ := PulseUnit.mk.inj h
    exact ⟨hactive, fun hkept => absurd (hsel.symm.trans hkept) (otherSlot_ne s.psel), hstate, hpin, hrun, hreload⟩

end Sys2Proof.Machine
end

section
/-! PROOFS. A step runs what its input decodes to (spec/20_memory.md R66, R67); the stored record under NV_SAVE, RESET and
boot (R59); and the hop handler's flag (R61, spec/42_hop_scheduler.md R114). -/

namespace Sys2Proof.Machine

/-! ### The step -/

/-- An exhausted input holds no operation of any space. -/
theorem decode_nil (c : Cfg) (p : Port) (m : FrameMode) : decode c p m [] = .error .truncated := by
  cases p <;> rfl

/-- Settles O7: bytes that decode to an operation are not the empty input, so the fetch gives that operation to `exec`. -/
theorem stepRunsDecodedOperation : Obligations.StepRunsDecodedOperation := by
  intro s i rest hd
  have hne : s.input ≠ [] := by
    intro e
    rw [e, decode_nil] at hd
    cases hd
  have hf : fetch Config.cfg s = .ok (i, { s with input := rest, port := .event }) :=
    (fetch_ok_iff s _ _ i).mpr ⟨rest, hne, hd, rfl⟩
  simp only [step, hf]

/-! ### The stored record -/

theorem bootConfig_nv (s : State) : (bootConfig s).nv = s.nv := by
  rcases hnv : s.nv with _ | r <;> simp [bootConfig, nvLoad, bindParse, hnv]

/-- The boot reads the storage and does not write it (R59, R186). -/
theorem bootBlock_nv (c : Cfg) (s : State) : (bootBlock c s).nv = s.nv := by
  simp [bootBlock, rearm_eq, bootConfig_nv]

theorem resetBlock_nv (c : Cfg) (pb : PulseBuffer) (sel : Fin 2) (s : State) : (resetBlock c pb sel s).nv = s.nv :=
  bootBlock_nv c (resetFields pb sel s)

/-- Settles O11: NV_SAVE is one record update, and neither the reset column nor the boot writes the storage. -/
theorem nvSaveIsAtomicAndSurvivesReset : Obligations.NvSaveIsAtomicAndSurvivesReset := by
  intro s r
  exact ⟨rfl, ⟨_, _, rfl, rfl, resetBlock_nv _ _ _ _⟩, _, rfl, bootBlock_nv _ _⟩

/-! ### The hop handler -/

theorem exec_hexp_running {s : State} (h : s.hopTimerRunning = true) : exec .hexp s = .next (hopExpire s) := if_pos h

theorem exec_hexp_stopped {s : State} (h : s.hopTimerRunning = false) : exec .hexp s = .refused .hopTimerStopped :=
  if_neg (by simp [h])

/-- A set of a set flag leaves it set, so two expiries before a dispatch are one (R61). -/
theorem hopExpire_hopExpire (s : State) : hopExpire (hopExpire s) = hopExpire s := rfl

/-- Settles O29: the expiry keeps the timer running, so a second one is admitted and is the same update again. -/
theorem hopExpirySetsFlagOnce : Obligations.HopExpirySetsFlagOnce := by
  intro s
  refine ⟨fun h => ⟨exec_hexp_running h, ?_⟩, exec_hexp_stopped⟩
  have hrun : (hopExpire s).hopTimerRunning = true := h
  simp only [runAll, exec_hexp_running h, exec_hexp_running hrun, hopExpire_hopExpire]

end Sys2Proof.Machine
end

section
/-! PROOFS. Encoding and decoding are inverse to each other in each of the five spaces (spec/30_encoding.md R73, R74, R87;
spec/40_dispatch.md R94; spec/48_output_commands.md R148, R150), and a frame is decoded into the one row whose pattern it
matches (R86). -/

namespace Sys2Proof

/-! ### The frame patterns -/

theorem isMarker_iff (v : Variant) (f : Frame) :
    isMarker v f = true ↔ f[0] = bindMarker ∧ f[1] = (bindPair v).1 ∧ f[2] = (bindPair v).2 := by
  simp [isMarker, and_assoc]

theorem isHopBlock_iff (k : U16) (seq : Byte) (f : Frame) :
    isHopBlock k seq f = true ↔ k = f[1] ++ f[0] ∧ f[2] = seq := by
  simp [isHopBlock]

/-- No frame is a marker of both variants, since the pairs differ (R85). -/
theorem isMarker_ch4_exclusive {f : Frame} (h : isMarker .ch4 f = true) : isMarker .ch3 f = false := by
  obtain ⟨-, h1, -⟩ := (isMarker_iff .ch4 f).mp h
  simp [isMarker, h1, bindPair]

theorem markerVariant_eq (f : Frame) :
    markerVariant f = if isMarker .ch3 f then some .ch3 else if isMarker .ch4 f then some .ch4 else none := by
  simp only [markerVariant, isMarker_iff, bindPair, bindMarker]

/-- A hop block that looked like a marker would need a checksum above any that an address can have (R82, R90). -/
theorem cksum_of_marker_hopBlock {v : Variant} {k : U16} {seq : Byte} {f : Frame} (hm : isMarker v f = true)
    (hb : isHopBlock k seq f = true) : 1275 < k.toNat := by
  obtain ⟨h0, h1, -⟩ := (isMarker_iff v f).mp hm
  obtain ⟨hk, -⟩ := (isHopBlock_iff k seq f).mp hb
  rw [hk, h0, h1]
  cases v <;> decide

/-! ### The frame decoder, stage by stage (R86) -/

section Stages

variable (c : Cfg) {m : FrameMode} (f : Frame)

theorem decodeFrame_awaitAddr (h : m.stage = .awaitAddr) :
    decodeFrame c m f =
      if isMarker .ch3 f then .bind0Ch3 else if isMarker .ch4 f then .bind0Ch4 else .bindReject := by
  simp only [decodeFrame, h, markerVariant_eq]
  by_cases h3 : isMarker .ch3 f = true
  · simp only [h3, if_true]
  · by_cases h4 : isMarker .ch4 f = true <;> simp only [h3, h4, if_true, if_false, Bool.false_eq_true]

theorem decodeFrame_awaitHop1 (h : m.stage = .awaitHop1) :
    decodeFrame c m f = if isHopBlock m.cksum 0#8 f then .bindBlk1 else .bindReject := by
  simp only [decodeFrame, h, hopBlockMatches_eq]
  rfl

theorem decodeFrame_awaitHop2 (h : m.stage = .awaitHop2) :
    decodeFrame c m f = if isHopBlock m.cksum 1#8 f then .bindBlk2 else .bindReject := by
  simp only [decodeFrame, h, hopBlockMatches_eq]
  rfl

theorem decodeFrame_awaitHop3 (h : m.stage = .awaitHop3) :
    decodeFrame c m f = if isHopBlock m.cksum 2#8 f then .bindBlk3 else .bindReject := by
  simp only [decodeFrame, h, hopBlockMatches_eq]
  rfl

theorem decodeFrame_idle (h : m.stage = .idle) :
    decodeFrame c m f =
      if f[7] = c.stickId m.variant then .dataStick
      else if f[7] = c.failsafeId m.variant ∧ f[8] = c.fsEnableMarker then .dataFsEn
      else if f[7] = c.failsafeId m.variant then .dataFsDis
      else .dataUnknown := by
  simp only [decodeFrame, h]

end Stages

/-! ### The one row of a frame -/

/-- The operation a frame is decoded into matches its row of R87's table. -/
theorem wellFormed_decodeFrame (c : Cfg) (m : FrameMode) (f : Frame) :
    WellFormed c m (frameInstr (decodeFrame c m f) f) = true := by
  cases hs : m.stage
  case idle =>
    rw [decodeFrame_idle c f hs]
    split_ifs <;> simp_all [frameInstr, WellFormed]
  case awaitAddr =>
    rw [decodeFrame_awaitAddr c f hs]
    split_ifs <;> simp_all [frameInstr, WellFormed, stageAccepts]
  case awaitHop1 =>
    rw [decodeFrame_awaitHop1 c f hs]
    split_ifs <;> simp_all [frameInstr, WellFormed, stageAccepts]
  case awaitHop2 =>
    rw [decodeFrame_awaitHop2 c f hs]
    split_ifs <;> simp_all [frameInstr, WellFormed, stageAccepts]
  case awaitHop3 =>
    rw [decodeFrame_awaitHop3 c f hs]
    split_ifs <;> simp_all [frameInstr, WellFormed, stageAccepts]

/-- A frame that its stage does not accept is rejected (R86, R106). -/
theorem decodeFrame_rejected (c : Cfg) {m : FrameMode} {f : Frame} (hs : m.stage ≠ .idle)
    (hr : stageAccepts m f = false) : decodeFrame c m f = .bindReject := by
  cases h : m.stage
  case idle => exact absurd h hs
  case awaitAddr => rw [decodeFrame_awaitAddr c f h]; simp_all [stageAccepts]
  case awaitHop1 => rw [decodeFrame_awaitHop1 c f h]; simp_all [stageAccepts]
  case awaitHop2 => rw [decodeFrame_awaitHop2 c f h]; simp_all [stageAccepts]
  case awaitHop3 => rw [decodeFrame_awaitHop3 c f h]; simp_all [stageAccepts]

/-- A frame that matches the row of an operation in its mode is decoded into that operation: the rows of a mode exclude each
other. -/
theorem decodeFrame_of_wellFormed (c : Cfg) {m : FrameMode} {f : Frame} {op : FrameOp}
    (h : WellFormed c m (frameInstr op f) = true) : decodeFrame c m f = op := by
  have hne : c.failsafeId m.variant ≠ c.stickId m.variant := (stickId_ne_failsafeId c m.variant).symm
  cases op <;> simp only [frameInstr, WellFormed, Bool.and_eq_true, beq_iff_eq, bne_iff_ne, Bool.not_eq_true'] at h
  case bind0Ch3 =>
    obtain ⟨hs, hm⟩ := h
    rw [decodeFrame_awaitAddr c f hs, if_pos hm]
  case bind0Ch4 =>
    obtain ⟨hs, hm⟩ := h
    rw [decodeFrame_awaitAddr c f hs, if_neg (by simp [isMarker_ch4_exclusive hm]), if_pos hm]
  case bindBlk1 =>
    obtain ⟨hs, hb⟩ := h
    rw [decodeFrame_awaitHop1 c f hs, if_pos hb]
  case bindBlk2 =>
    obtain ⟨hs, hb⟩ := h
    rw [decodeFrame_awaitHop2 c f hs, if_pos hb]
  case bindBlk3 =>
    obtain ⟨hs, hb⟩ := h
    rw [decodeFrame_awaitHop3 c f hs, if_pos hb]
  case bindReject =>
    obtain ⟨hs, hr⟩ := h
    exact decodeFrame_rejected c hs hr
  case dataStick =>
    obtain ⟨hs, h7⟩ := h
    rw [decodeFrame_idle c f hs, if_pos h7]
  case dataFsEn =>
    obtain ⟨⟨hs, h7⟩, h8⟩ := h
    rw [decodeFrame_idle c f hs, if_neg (h7 ▸ hne), if_pos ⟨h7, h8⟩]
  case dataFsDis =>
    obtain ⟨⟨hs, h7⟩, h8⟩ := h
    rw [decodeFrame_idle c f hs, if_neg (h7 ▸ hne), if_neg (fun h => h8 h.2), if_pos h7]
  case dataUnknown =>
    obtain ⟨⟨hs, h7⟩, h7'⟩ := h
    rw [decodeFrame_idle c f hs, if_neg h7, if_neg (fun h => h7' h.1), if_neg h7']

/-- Settles O4: the decoded operation matches its row, and matching a row fixes the decoded operation. -/
theorem frameDecodesToItsOneRow : Obligations.FrameDecodesToItsOneRow := by
  intro m f op
  refine ⟨?_, decodeFrame_of_wellFormed Config.cfg⟩
  rintro rfl
  exact wellFormed_decodeFrame Config.cfg m f

/-- Settles O5: a frame that is both would give a checksum above 1275. -/
theorem markerAndHopBlockNeverConfused : Obligations.MarkerAndHopBlockNeverConfused := by
  intro m f hk
  have hnot : ∀ v seq, isMarker v f = true → isHopBlock m.cksum seq f = false := fun v seq hm =>
    Bool.eq_false_iff.mpr fun hb => absurd (cksum_of_marker_hopBlock hm hb) (Nat.not_lt.mpr hk)
  refine ⟨fun hs hm => ?_, fun seq hs hb => ?_⟩
  · obtain ⟨v, hv⟩ : ∃ v, isMarker v f = true := hm.elim (fun h => ⟨_, h⟩) (fun h => ⟨_, h⟩)
    rcases hs with hs | hs | hs <;> refine decodeFrame_rejected _ (by simp [hs]) ?_ <;>
      simp only [stageAccepts, hs, hnot v _ hv]
  · have hno : ∀ v, isMarker v f = false := fun v =>
      Bool.eq_false_iff.mpr fun hm => Bool.noConfusion ((hnot v seq hm).symm.trans hb)
    refine decodeFrame_rejected _ (by simp [hs]) ?_
    simp only [stageAccepts, hs, hno, Bool.or_false]

/-! ### Encoding, then decoding, in each space -/

section Spaces

variable {i : Instr} {bs : List Byte} (rest : List Byte)

theorem decodeEvent_encode (h : encode i = some (.event, bs)) : decodeEvent (bs ++ rest) = .ok (i, rest) := by
  cases i <;> cases h
  case tick b => cases b <;> rfl
  case rxf f => exact congrArg (Except.map _) (takeBytes_append f rest)
  all_goals rfl

theorem decodePhase_encode {sample : Bool} (h : encode i = some (.phase sample, bs)) :
    decodePhase sample (bs ++ rest) = .ok (i, rest) := by
  cases i <;> cases h <;> rfl

theorem decodeCommand_encode (h : encode i = some (.command, bs)) : decodeCommand (bs ++ rest) = .ok (i, rest) := by
  cases i <;> cases h
  case ce b => cases b <;> rfl
  case setAddr a => exact congrArg (Except.map _) (takeBytes_append a rest)
  case hopTimerStart iv => cases iv <;> rfl
  case nvSave r => exact congrArg (Except.map _) (takeBytes_append r rest)
  case ptimerLoad v =>
    have he : decodeCommand ([0x41#8, lo8 v, hi8 v] ++ rest) = .ok (.ptimerLoad (hilo (hi8 v) (lo8 v)), rest) := rfl
    exact he.trans (by rw [hilo_hi8_lo8])
  all_goals rfl

theorem decodeCondition_encode (h : encode i = some (.condition, bs)) :
    decodeCondition (bs ++ rest) = .ok (i, rest) := by
  cases i <;> cases h
  case cond code =>
    have hcode : ∀ code : BitVec 4, (0xF#4 ++ code : Byte).extractLsb' 4 4 = 0xF#4 ∧
        (0xF#4 ++ code : Byte).extractLsb' 0 4 = code := by decide
    obtain ⟨hhi, hlo⟩ := hcode code
    simp only [List.cons_append, List.nil_append, decodeCondition, hhi, hlo, if_true]

/-- What is encoded in the frame space is a frame operation with its frame. -/
theorem frameInstr_of_encode (h : encode i = some (.frame, bs)) : ∃ op f, i = frameInstr op f ∧ bs = f.toList := by
  cases i <;> cases h
  case bind0Ch3 f => exact ⟨.bind0Ch3, f, rfl, rfl⟩
  case bind0Ch4 f => exact ⟨.bind0Ch4, f, rfl, rfl⟩
  case bindBlk1 f => exact ⟨.bindBlk1, f, rfl, rfl⟩
  case bindBlk2 f => exact ⟨.bindBlk2, f, rfl, rfl⟩
  case bindBlk3 f => exact ⟨.bindBlk3, f, rfl, rfl⟩
  case bindReject f => exact ⟨.bindReject, f, rfl, rfl⟩
  case dataStick f => exact ⟨.dataStick, f, rfl, rfl⟩
  case dataFsEn f => exact ⟨.dataFsEn, f, rfl, rfl⟩
  case dataFsDis f => exact ⟨.dataFsDis, f, rfl, rfl⟩
  case dataUnknown f => exact ⟨.dataUnknown, f, rfl, rfl⟩

theorem decode_frame_encode (c : Cfg) {m : FrameMode} (hw : WellFormed c m i = true)
    (h : encode i = some (.frame, bs)) : decode c .frame m (bs ++ rest) = .ok (i, rest) := by
  obtain ⟨op, f, rfl, rfl⟩ := frameInstr_of_encode h
  simp only [decode, takeBytes_append, Except.map, decodeFrame_of_wellFormed c hw]

end Spaces

/-- Settles O1, space by space; only in the frame space does the mode, and so well-formedness, matter. -/
theorem decodeInvertsEncode : Obligations.DecodeInvertsEncode := by
  intro m i p bs rest hw h
  cases p with
  | event => exact decodeEvent_encode rest h
  | frame => exact decode_frame_encode rest Config.cfg hw h
  | phase sample => exact decodePhase_encode rest h
  | command => exact decodeCommand_encode rest h
  | condition => exact decodeCondition_encode rest h

/-! ### Decoding, then encoding, in each space -/

/-- The bytes begin with the encoding of an operation in a space, and the rest follows it. -/
def EncodedIn (p : Port) (i : Instr) (bs rest : List Byte) : Prop :=
  ∃ bs', encode i = some (p, bs') ∧ bs = bs' ++ rest

theorem encodedIn_byte {i : Instr} {p : Port} {b : Byte} {rest : List Byte} {n : Nat}
    (he : encode i = some (p, [BitVec.ofNat 8 n])) (hb : b.toNat = n) : EncodedIn p i (b :: rest) rest := by
  subst hb
  exact ⟨_, he, by simp⟩

theorem toList_one (v : Vector Byte 1) : v.toList = [v[0]] := by
  obtain ⟨⟨l⟩, hl⟩ := v
  obtain ⟨x, rfl⟩ := List.length_eq_one_iff.mp hl
  rfl

theorem toList_two (v : Vector Byte 2) : v.toList = [v[0], v[1]] := by
  obtain ⟨⟨l⟩, hl⟩ := v
  obtain ⟨x, y, rfl⟩ := List.length_eq_two.mp hl
  rfl

theorem takeBytes_map_ok {α : Type} {n : Nat} {bs rest : List Byte} {g : Vector Byte n → α} {x : α}
    (h : (takeBytes n bs).map (fun (v, rest) => (g v, rest)) = .ok (x, rest)) :
    ∃ v : Vector Byte n, bs = v.toList ++ rest ∧ x = g v := by
  rcases e : takeBytes n bs with er | ⟨v, r⟩ <;> rw [e] at h <;> cases h
  exact ⟨v, takeBytes_ok e, rfl⟩

/-- An event byte is its code and its operand (R73). -/
theorem toNat_of_nibbles {b : Byte} {code operand : Nat} (hc : (b.extractLsb' 4 4).toNat = code)
    (ho : (b.extractLsb' 0 4).toNat = operand) : b.toNat = 16 * code + operand := by
  have hb := b.isLt
  simp only [BitVec.extractLsb'_toNat, Nat.shiftRight_eq_div_pow] at hc ho
  omega

theorem append_nibbles (b : Byte) : ((b.extractLsb' 4 4 : BitVec 4) ++ (b.extractLsb' 0 4 : BitVec 4) : Byte) = b := by
  revert b; decide

theorem decodeEvent_ok {i : Instr} {bs rest : List Byte} (h : decodeEvent bs = .ok (i, rest)) :
    EncodedIn .event i bs rest := by
  unfold decodeEvent at h
  split at h
  · cases h
  · rename_i b bs
    split at h
    case h_4 hc ho =>
      obtain ⟨f, rfl, rfl⟩ := takeBytes_map_ok h
      have hb : b = 0x20#8 := BitVec.eq_of_toNat_eq (toNat_of_nibbles hc ho)
      exact ⟨_, rfl, by rw [hb]; rfl⟩
    case h_9 => split at h <;> cases h
    case h_1 hc ho | h_2 hc ho | h_3 hc ho | h_5 hc ho | h_6 hc ho | h_7 hc ho | h_8 hc ho =>
      cases h
      exact encodedIn_byte rfl (toNat_of_nibbles hc ho)

theorem decodePhase_ok {sample : Bool} {i : Instr} {bs rest : List Byte} (h : decodePhase sample bs = .ok (i, rest)) :
    ∃ b, EncodedIn (.phase b) i bs rest := by
  unfold decodePhase at h
  split at h
  · cases h
  · split at h <;> cases h
    all_goals exact ⟨_, encodedIn_byte rfl (by assumption)⟩

theorem decodeCeArg_ok {i : Instr} {bs rest : List Byte} (h : decodeCeArg bs = .ok (i, rest)) :
    ∃ b, i = .ce b ∧ bs = (if b then 0x01#8 else 0x00#8) :: rest := by
  unfold decodeCeArg at h
  split at h
  · cases h
  · split_ifs at h with h0 h1 <;> cases h
    · exact ⟨false, rfl, by rw [h0]; rfl⟩
    · exact ⟨true, rfl, by rw [h1]; rfl⟩

theorem decodeHopStartArg_ok {i : Instr} {bs rest : List Byte} (h : decodeHopStartArg bs = .ok (i, rest)) :
    ∃ iv, i = .hopTimerStart iv ∧ bs = iv.byte :: rest := by
  unfold decodeHopStartArg at h
  split at h
  · cases h
  · split_ifs at h with h0 h1 <;> cases h
    · exact ⟨.first, rfl, by rw [h0]; rfl⟩
    · exact ⟨.steady, rfl, by rw [h1]; rfl⟩

theorem decodeCommand_ok {i : Instr} {bs rest : List Byte} (h : decodeCommand bs = .ok (i, rest)) :
    EncodedIn .command i bs rest := by
  unfold decodeCommand at h
  split at h
  · cases h
  · rename_i b bs
    have hcode : ∀ {n : Nat}, b.toNat = n → b = BitVec.ofNat 8 n := fun hb => by rw [← hb]; simp
    split at h
    case h_2 hb =>
      obtain ⟨v, rfl, rfl⟩ := decodeCeArg_ok h
      exact ⟨_, rfl, by rw [hcode hb]; rfl⟩
    case h_3 hb =>
      obtain ⟨a, rfl, rfl⟩ := takeBytes_map_ok h
      exact ⟨_, rfl, by rw [hcode hb]; rfl⟩
    case h_4 hb =>
      obtain ⟨v, rfl, rfl⟩ := takeBytes_map_ok (g := fun v => Instr.setChannel v[0]) h
      exact ⟨_, rfl, by rw [hcode hb, toList_one]; rfl⟩
    case h_7 hb =>
      obtain ⟨iv, rfl, rfl⟩ := decodeHopStartArg_ok h
      exact ⟨_, rfl, by rw [hcode hb]; rfl⟩
    case h_9 hb =>
      obtain ⟨r, rfl, rfl⟩ := takeBytes_map_ok h
      exact ⟨_, rfl, by rw [hcode hb]; rfl⟩
    case h_11 hb =>
      obtain ⟨v, rfl, rfl⟩ := takeBytes_map_ok (g := fun v => Instr.ptimerLoad (hilo v[1] v[0])) h
      exact ⟨_, rfl, by rw [hcode hb, toList_two, commandBytes, lo8_hilo, hi8_hilo]; rfl⟩
    all_goals cases h
    all_goals exact encodedIn_byte rfl (by assumption)

theorem decodeCondition_ok {i : Instr} {bs rest : List Byte} (h : decodeCondition bs = .ok (i, rest)) :
    EncodedIn .condition i bs rest := by
  unfold decodeCondition at h
  split at h
  · cases h
  · rename_i b bs
    split_ifs at h with hhi
    cases h
    refine ⟨_, rfl, ?_⟩
    rw [← hhi, append_nibbles]
    rfl

/-- Outside the frame and the condition space no operand can be ill-formed. -/
theorem wellFormed_of_encode (c : Cfg) (m : FrameMode) {i : Instr} {p : Port} {bs : List Byte}
    (h : encode i = some (p, bs)) (hp : p = .event ∨ (∃ b, p = .phase b) ∨ p = .command) :
    WellFormed c m i = true := by
  rcases hp with rfl | ⟨b, rfl⟩ | rfl <;> cases i <;> cases h <;> rfl

theorem decode_frame_ok {c : Cfg} {m : FrameMode} {i : Instr} {bs rest : List Byte}
    (h : decode c .frame m bs = .ok (i, rest)) : EncodedIn .frame i bs rest ∧ WellFormed c m i = true := by
  obtain ⟨f, rfl, rfl⟩ := takeBytes_map_ok (g := fun f => frameInstr (decodeFrame c m f) f) h
  have he : ∀ op, encode (frameInstr op f) = some (.frame, f.toList) := fun op => by cases op <;> rfl
  exact ⟨⟨_, he _, rfl⟩, wellFormed_decodeFrame c m f⟩

/-- Settles O2, space by space: the inversion of each decoder gives back the bytes it consumed. -/
theorem encodeInvertsDecode : Obligations.EncodeInvertsDecode := by
  intro m p bs rest i h
  cases p with
  | event =>
    obtain ⟨bs', he, hbs⟩ := decodeEvent_ok h
    exact ⟨⟨_, bs', he, hbs⟩, fun _ => wellFormed_of_encode _ m he (.inl rfl)⟩
  | frame =>
    obtain ⟨henc, hw⟩ := decode_frame_ok h
    exact ⟨⟨_, henc⟩, fun _ => hw⟩
  | phase sample =>
    obtain ⟨b, bs', he, hbs⟩ := decodePhase_ok h
    exact ⟨⟨_, bs', he, hbs⟩, fun _ => wellFormed_of_encode _ m he (.inr (.inl ⟨b, rfl⟩))⟩
  | command =>
    obtain ⟨bs', he, hbs⟩ := decodeCommand_ok h
    exact ⟨⟨_, bs', he, hbs⟩, fun _ => wellFormed_of_encode _ m he (.inr (.inr rfl))⟩
  | condition => exact ⟨⟨_, decodeCondition_ok h⟩, fun hp => absurd rfl hp⟩

/-! ### Ill-formed events -/

/-- The bytes an event can begin with (R73): the code and the operand of each row. -/
theorem decodeEvent_head {i : Instr} {b : Byte} {bs rest : List Byte} (h : decodeEvent (b :: bs) = .ok (i, rest)) :
    b ∈ [0x00#8, 0x10#8, 0x11#8, 0x20#8, 0x30#8, 0x40#8, 0x50#8, 0x60#8] := by
  obtain ⟨bs', he, hbs⟩ := decodeEvent_ok h
  cases i <;> cases he
  case tick pressed => cases pressed <;> obtain ⟨rfl, -⟩ := List.cons.inj hbs <;> decide
  all_goals obtain ⟨rfl, -⟩ := List.cons.inj hbs; decide

/-- The table's operand bits, on the bytes an event can begin with. -/
theorem head_operand_legal : ∀ b ∈ [0x00#8, 0x10#8, 0x11#8, 0x20#8, 0x30#8, 0x40#8, 0x50#8, 0x60#8],
    (b.extractLsb' 4 4).toNat < 7 ∧
      ((b.extractLsb' 0 4).toNat = 0 ∨ (b.extractLsb' 4 4).toNat = 1 ∧ (b.extractLsb' 0 4).toNat = 1) := by decide

end Sys2Proof

namespace Sys2Proof.Machine

/-- Bytes that decode to no operation are refused (R74). -/
theorem step_undecodable {s : State} {e : DecodeError} (hne : s.input ≠ [])
    (h : decode Config.cfg s.port (frameMode s) s.input = .error e) : step s = .refused (.undecodable e) := by
  obtain ⟨b, bs, hin⟩ := List.exists_cons_of_ne_nil hne
  rw [hin] at h
  simp only [step, fetch, hin, h]

/-- Settles O6: such a byte begins no event, so the decoder answers an error and the fetch refuses it. -/
theorem illFormedEventsHaveNoStep : Obligations.IllFormedEventsHaveNoStep := by
  intro s b rest hp hin hbad
  rcases hd : decodeEvent (b :: rest) with e | ⟨i, r⟩
  · exact ⟨e, step_undecodable (by simp [hin]) (by rw [hp, hin]; exact hd)⟩
  · obtain ⟨hcode, hoperand⟩ := head_operand_legal b (decodeEvent_head hd)
    omega

/-! ### Words of the opcode table -/

/-- Settles O3: each word is read by evaluation, in the first space it decodes in. -/
theorem tableWordsDecode : Obligations.TableWordsDecode :=
  ⟨rfl, rfl, rfl, rfl, rfl, rfl, rfl, rfl, rfl, rfl, rfl⟩

end Sys2Proof.Machine
end

section
/-! PROOFS. What each frame operation does run alone: the marker, the hop blocks and the rejected frames of a session
(spec/41_bind_handshake.md R104 to R106), and the stick and failsafe frames of data mode (spec/43_packet_receiver.md R121 to
R125). -/

namespace Sys2Proof.Machine

/-! ### A frame operation as an operation of its own -/

theorem exec_frameInstr (op : FrameOp) (f : Frame) (s : State) :
    exec (frameInstr op f) s = .next (runFrame Config.cfg op f s) := by
  cases op <;> rfl

/-- A frame decoded in the state's mode and executed there. -/
theorem exec_decodeFrame (f : Frame) {s t : State} (h : frameMode s = frameMode t) :
    exec (frameInstr (decodeFrame Config.cfg (frameMode s) f) f) t = .next (handleFrame Config.cfg f t) := by
  rw [h, exec_frameInstr]
  rfl

/-! ### The record a session assembles (R79, R84) -/

theorem recordMarker_get (f : Frame) (r : BindRecord) (j : Fin 26) :
    (recordMarker f r)[j] = if h : j.val < 5 then f[3 + j.val] else if j.val = 25 then f[1] else r[j] := by
  simp [recordMarker]

/-- The window of a hop block: the record bytes from `lo` up to `hi`, each the frame byte `d` places before it (R84). -/
theorem recordBlock_get {base len lo hi d : Nat} (hlo : 5 + base = lo) (hhi : lo + len = hi) (hd : d + 3 = lo)
    (hlen : len ≤ 7) (f : Frame) (r : BindRecord) (j : Fin 26) :
    (recordBlock base len f r)[j] = if h : lo ≤ j.val ∧ j.val < hi then f[j.val - d] else r[j] := by
  subst hlo hhi
  by_cases h : 5 + base ≤ j.val ∧ j.val < 5 + base + len
  · have hpos : 3 + (j.val - (5 + base)) = j.val - d := by omega
    have hfull : 5 + base ≤ j.val ∧ j.val < 5 + base + len ∧ j.val - d < 10 := by omega
    simp only [recordBlock, Fin.getElem_fin, Vector.getElem_ofFn, dif_pos h, hpos, dif_pos hfull]
  · have hout : ¬(5 + base ≤ j.val ∧ j.val < 5 + base + len ∧ 3 + (j.val - (5 + base)) < 10) := by omega
    simp only [recordBlock, Fin.getElem_fin, Vector.getElem_ofFn, dif_neg h, dif_neg hout]

theorem recordBlock_first_get (f : Frame) (r : BindRecord) (j : Fin 26) :
    (recordBlock 0 7 f r)[j] = if h : 5 ≤ j.val ∧ j.val < 12 then f[j.val - 2] else r[j] :=
  recordBlock_get (d := 2) rfl rfl rfl (by decide) f r j

theorem recordBlock_second_get (f : Frame) (r : BindRecord) (j : Fin 26) :
    (recordBlock 7 7 f r)[j] = if h : 12 ≤ j.val ∧ j.val < 19 then f[j.val - 9] else r[j] :=
  recordBlock_get (d := 9) rfl rfl rfl (by decide) f r j

theorem recordBlock_third_get (f : Frame) (r : BindRecord) (j : Fin 26) :
    (recordBlock 14 6 f r)[j] = if h : 19 ≤ j.val ∧ j.val < 25 then f[j.val - 16] else r[j] :=
  recordBlock_get (d := 16) rfl rfl rfl (by decide) f r j

theorem addressSum_toNat (f : Frame) :
    (addressSum f).toNat = f[3].toNat + f[4].toNat + f[5].toNat + f[6].toNat + f[7].toNat := by
  have hbyte : ∀ b : Byte, b.toNat < 256 := fun b => b.isLt
  have h3 := hbyte f[3]
  have h4 := hbyte f[4]
  have h5 := hbyte f[5]
  have h6 := hbyte f[6]
  have h7 := hbyte f[7]
  simp only [addressSum, BitVec.toNat_add, BitVec.toNat_setWidth]
  omega

theorem addressSum_le (f : Frame) : (addressSum f).toNat ≤ 1275 := by
  have hbyte : ∀ b : Byte, b.toNat ≤ 255 := fun b => Nat.le_of_lt_succ b.isLt
  have h3 := hbyte f[3]
  have h4 := hbyte f[4]
  have h5 := hbyte f[5]
  have h6 := hbyte f[6]
  have h7 := hbyte f[7]
  rw [addressSum_toNat]
  omega

/-- Settles O18: both markers run the one operation of R104, whose sum of five bytes does not overflow. -/
theorem markerCapturesAddress : Obligations.MarkerCapturesAddress := by
  intro s f i hi
  have hexec : exec i s = .next (bindMarker0 f s) := by rcases hi with rfl | rfl <;> rfl
  have hle := addressSum_le f
  refine ⟨recordMarker f s.bindRec, addressSum f, hexec, recordMarker_get f s.bindRec, ?_, hle⟩
  rw [addressSum_toNat] at hle ⊢
  omega

/-- Settles O19: each block writes its window of the record, and the last one is the commit of the record it completes. -/
theorem hopBlocksFillRecord : Obligations.HopBlocksFillRecord := by
  intro s f
  refine ⟨⟨_, rfl, recordBlock_first_get f s.bindRec⟩, ⟨_, rfl, recordBlock_second_get f s.bindRec⟩, _, rfl,
    recordBlock_third_get f s.bindRec, bindBlock3 Config.cfg f s, rfl, ?_⟩
  rw [bindBlock3_eq, bindCommit_eq]
  exact ⟨rfl, rfl, rfl, rfl⟩

/-- Settles O24: each of the two operations raises its condition and does nothing else. -/
theorem rejectedFramesChangeNothing : Obligations.RejectedFramesChangeNothing :=
  fun _ _ => ⟨rfl, rfl⟩

/-! ### Data frames -/

/-- Settles O36: the stick frame of this layout publishes each value's two bytes, put together again. -/
theorem stickFrameRoundTrip : Obligations.StickFrameRoundTrip := by
  intro s v₀ v₁ v₂ v₃ d m
  obtain ⟨pb, hexec, -, h0, h1, h2, h3⟩ := stickFramePublishesChannels s
    #v[v₀.extractLsb' 0 8, v₀.extractLsb' 8 8, v₁.extractLsb' 0 8, v₁.extractLsb' 8 8,
      v₂.extractLsb' 0 8, v₂.extractLsb' 8 8, v₃.extractLsb' 0 8, d, m, v₃.extractLsb' 8 8]
  refine ⟨_, hexec, h0.trans (append_extract v₀), h1.trans (append_extract v₁), h2.trans (append_extract v₂),
    fun hv => ?_⟩
  rw [if_pos hv] at h3
  exact h3.trans (append_extract v₃)

theorem exec_dataFsEn (f : Frame) (s : State) : exec (.dataFsEn f) s = .next (failsafeEnableFrame Config.cfg f s) := rfl

theorem exec_dataFsDis (f : Frame) (s : State) : exec (.dataFsDis f) s = .next (failsafeDisableFrame Config.cfg s) := rfl

/-- Settles O37: the failsafe set is overlaid with the frame's values or reset, and `hop_valid()` follows. -/
theorem failsafeFramesConfigure : Obligations.FailsafeFramesConfigure := by
  intro s f
  have hvalue : ∀ k : Fin 4, (overlay (channelCount s.variant) (frameChannels f) s.fsValues)[k] =
      if k.val < channelCount s.variant then chan f k else s.fsValues[k] := fun k => by
    rw [overlay_get, frameChannels_get]
  have hused : ∀ k : Fin 4, k.val < 3 →
      (overlay (channelCount s.variant) (frameChannels f) s.fsValues)[k] = chan f k :=
    fun k hk => (hvalue k).trans (if_pos (lt_channelCount_of_lt_three hk s.variant))
  refine ⟨⟨overlay (channelCount s.variant) (frameChannels f) s.fsValues, ?_, hused 0 (by decide), hused 1 (by decide),
    hused 2 (by decide), (hvalue 3).trans (if_congr (three_lt_channelCount_iff s.variant) rfl rfl)⟩, ?_⟩
  · rw [exec_dataFsEn, failsafeEnableFrame_eq]
    rfl
  · rw [exec_dataFsDis, failsafeDisableFrame_eq]
    rfl

end Sys2Proof.Machine
end

section
/-! PROOFS. The two phases that drain the radio queue, run alone: the bind phase (spec/41_bind_handshake.md R103, R195) and the
receiver phase (spec/43_packet_receiver.md R119). -/

namespace Sys2Proof.Machine

/-! ### The bind phase, case by case -/

section BindPhase

variable (c : Cfg) (s : State) (hs : s.bindStage ≠ .idle)

include hs

theorem bindPhase_timeout (ht : s.bindTimer = 0) : bindPhase c s = bindTimeout c s := by
  simp [bindPhase, hs, ht]

theorem bindPhase_waits (ht : s.bindTimer ≠ 0) (hr : s.radioFlag = false) : bindPhase c s = s := by
  simp [bindPhase, hs, ht, hr]

theorem bindPhase_drains (ht : s.bindTimer ≠ 0) (hr : s.radioFlag = true) :
    bindPhase c s = bindDrain c s.rxq.length { s with radioFlag := false } := by
  simp [bindPhase, hs, ht, hr]

end BindPhase

theorem eq_of_radioFlag {s : State} {b : Bool} (h : s.radioFlag = b) : { s with radioFlag := b } = s := by
  subst h; rfl

/-! ### What the bind phase leaves alone -/

/-- The countdowns, the failsafe set, `ever_received`, the pulse outputs and the LED of s are those of t. -/
def KeptByBind (s t : State) : Prop :=
  t.fsTimer = s.fsTimer ∧ t.bindTimer = s.bindTimer ∧ t.blinkTimer = s.blinkTimer ∧ t.everReceived = s.everReceived ∧
    t.fsEnabled = s.fsEnabled ∧ t.fsValues = s.fsValues ∧ t.pbuf = s.pbuf ∧ t.psel = s.psel ∧ t.pstate = s.pstate ∧
    t.pin = s.pin ∧ t.led = s.led

theorem KeptByBind.refl (s : State) : KeptByBind s s := ⟨rfl, rfl, rfl, rfl, rfl, rfl, rfl, rfl, rfl, rfl, rfl⟩

theorem bindTimeout_kept (c : Cfg) (s : State) : KeptByBind s (bindTimeout c s) := by
  rw [bindTimeout_eq]; exact .refl s

/-- A frame of a session keeps them, and a clear radio flag clear, also where it commits (R104 to R107, R109). -/
theorem handleFrame_session_kept (c : Cfg) (f : Frame) (s₀ s : State) (hs : s.bindStage ≠ .idle)
    (h : KeptByBind s₀ s ∧ s.radioFlag = false) :
    KeptByBind s₀ (handleFrame c f s) ∧ (handleFrame c f s).radioFlag = false := by
  rcases handleFrame_bind c f s hs with ⟨-, e⟩ | ⟨-, e⟩ | ⟨-, e⟩ | ⟨-, e⟩ | e <;> rw [e]
  · exact h
  · exact h
  · exact h
  · rw [bindBlock3_eq, bindCommit_eq]; exact ⟨h.1, rfl⟩
  · exact h

theorem bindDrain_kept (c : Cfg) (n : Nat) (s : State) (hs : s.bindStage ≠ .idle) (hr : s.radioFlag = false) :
    KeptByBind s (bindDrain c n s) ∧ (bindDrain c n s).radioFlag = false :=
  bindDrain_induction c (P := fun t => KeptByBind s t ∧ t.radioFlag = false) (fun _ h => h)
    (fun u f q hu _ h => handleFrame_session_kept c f s { u with rxq := q } hu h) n s hs ⟨.refl s, hr⟩

theorem bindPhase_kept (c : Cfg) (s : State) :
    KeptByBind s (bindPhase c s) ∧ (s.bindStage ≠ .idle → (bindPhase c s).radioFlag = false) := by
  rcases bindPhase_cases c s with ⟨hi, e⟩ | ⟨-, -, e⟩ | ⟨-, -, hr, e⟩ | ⟨hs, -, -, e⟩ <;> rw [e]
  · exact ⟨.refl s, fun hs => absurd hi hs⟩
  · exact ⟨bindTimeout_kept c s, fun _ => by rw [bindTimeout_eq]⟩
  · exact ⟨.refl s, fun _ => hr⟩
  · have hdrain := bindDrain_kept c s.rxq.length { s with radioFlag := false } hs rfl
    exact ⟨hdrain.1, fun _ => hdrain.2⟩

/-! ### The drain's first frame -/

theorem exec_dispBind (s : State) : exec .dispBind s = .next (bindPhase Config.cfg s) := rfl

/-- After a frame that leaves the session active the phase goes on as a phase of its own with the rest of the queue. -/
theorem bindDrain_as_phase (c : Cfg) (u : State) (hs : u.bindStage ≠ .idle) (ht : u.bindTimer ≠ 0)
    (hr : u.radioFlag = false) : bindDrain c u.rxq.length u = bindPhase c { u with radioFlag := true } := by
  rw [bindPhase_drains c { u with radioFlag := true } hs ht rfl]
  exact congrArg (bindDrain c u.rxq.length) (eq_of_radioFlag hr).symm

/-- Settles O25: the four tests of R103 in their order, and one frame unfolded from the drain. -/
theorem bindPhaseTestsTimeoutFirst : Obligations.BindPhaseTestsTimeoutFirst := by
  intro s
  refine ⟨fun hi => ?_, fun hs ht => ?_, fun hs ht hr => ?_, fun hs ht hr => ⟨fun hq => ?_, fun f q hq => ?_⟩, ?_⟩
  · rw [exec_dispBind, bindPhase_idle _ _ hi]
  · rw [exec_dispBind, bindPhase_timeout _ _ hs ht]
    rfl
  · rw [exec_dispBind, bindPhase_waits _ _ hs ht hr]
  · rw [exec_dispBind, bindPhase_drains _ _ hs ht hr, bindDrain_nil _ { s with radioFlag := false } _ hq]
    rfl
  · have hphase : exec .dispBind s =
        .next (bindDrain Config.cfg (q.length + 1) { s with radioFlag := false }) := by
      rw [exec_dispBind, bindPhase_drains _ _ hs ht hr, hq, List.length_cons]
    rw [hphase, bindDrain_cons Config.cfg f { s with radioFlag := false } q.length q hq]
    refine ⟨_, exec_decodeFrame f (s := s) (t := { s with radioFlag := false, rxq := q }) rfl, fun hi => ?_, fun hu => ?_⟩
    · rw [if_pos hi]
    · obtain ⟨hrest, htimer, -, hflag⟩ := handleFrame_session Config.cfg f { s with radioFlag := false, rxq := q } hs hu
      have hlen : q.length = (handleFrame Config.cfg f { s with radioFlag := false, rxq := q }).rxq.length := by rw [hrest]
      refine ⟨hrest, ?_⟩
      rw [if_neg hu, hlen, bindDrain_as_phase _ _ hu (by rw [htimer]; exact ht) hflag]
      rfl
  · obtain ⟨hkept, hflag⟩ := bindPhase_kept Config.cfg s
    exact ⟨_, exec_dispBind s, hflag, hkept⟩

/-! ### The receiver phase -/

theorem exec_dispRx (s : State) : exec .dispRx s = .next (rxPhase Config.cfg s) := rfl

theorem rxPhase_empty (c : Cfg) (s : State) (hr : s.radioFlag = true) (hq : s.rxq = []) :
    rxPhase c s = { s with radioFlag := false, trace := s.trace ++ [.cmd .clearIrq] } := by
  rw [rxPhase_eq c s hr, hq]
  rfl

theorem rxPhase_last (c : Cfg) (s : State) {q : List Frame} {f : Frame} (hr : s.radioFlag = true)
    (hq : s.rxq = q ++ [f]) :
    rxPhase c s = handleFrame c f { s with radioFlag := false, rxq := [], trace := s.trace ++ [.cmd .clearIrq] } := by
  rw [rxPhase_eq c s hr, hq, List.getLast?_concat]

/-- The pulse generator, the LED and the countdowns but the failsafe one of s are those of t. -/
def KeptByReceiver (s t : State) : Prop :=
  t.pstate = s.pstate ∧ t.pin = s.pin ∧ t.ptimerRunning = s.ptimerRunning ∧ t.ptimerReload = s.ptimerReload ∧
    t.bindTimer = s.bindTimer ∧ t.blinkTimer = s.blinkTimer ∧ t.led = s.led ∧ t.ledLast = s.ledLast

/-- No frame operation of either mode writes them, or sets the radio flag (R104 to R107, R121 to R123). -/
theorem handleFrame_kept (c : Cfg) (f : Frame) (s : State) (hr : s.radioFlag = false) :
    (handleFrame c f s).radioFlag = false ∧ KeptByReceiver s (handleFrame c f s) := by
  have hrefl : s.radioFlag = false ∧ KeptByReceiver s s := ⟨hr, rfl, rfl, rfl, rfl, rfl, rfl, rfl, rfl⟩
  by_cases hi : s.bindStage = .idle
  · rcases handleFrame_data c f s hi with ⟨-, e⟩ | ⟨-, e | e | e⟩ <;> rw [e]
    · rw [stickFrame_eq]; exact hrefl
    · rw [failsafeEnableFrame_eq]; exact hrefl
    · rw [failsafeDisableFrame_eq]; exact hrefl
    · exact hrefl
  · rcases handleFrame_bind c f s hi with ⟨-, e⟩ | ⟨-, e⟩ | ⟨-, e⟩ | ⟨-, e⟩ | e <;> rw [e]
    · exact hrefl
    · exact hrefl
    · exact hrefl
    · rw [bindBlock3_eq, bindCommit_eq]; exact ⟨rfl, hrefl.2⟩
    · exact hrefl

theorem rxPhase_kept (c : Cfg) (s : State) : (rxPhase c s).radioFlag = false ∧ KeptByReceiver s (rxPhase c s) := by
  rcases hr : s.radioFlag
  · rw [rxPhase_idle c s hr]
    exact ⟨hr, rfl, rfl, rfl, rfl, rfl, rfl, rfl, rfl⟩
  · rw [rxPhase_eq c s hr]
    split
    · exact ⟨rfl, rfl, rfl, rfl, rfl, rfl, rfl, rfl, rfl⟩
    · exact handleFrame_kept c _ { s with radioFlag := false, rxq := [], trace := _ } rfl

theorem rxPhase_keepsConfig (c : Cfg) (s : State) (hi : s.bindStage = .idle) : KeepsConfig s (rxPhase c s) :=
  (keepsConfig_keptByRoutine c s).rxPhase (fun u f h => h.trans (stickFrame_keepsConfig c u f)) s hi (.refl s)

/-- Settles O33: the receiver phase is R119's three cases, and no frame operation reaches past its own fields. -/
theorem receiverHandlesLastFrameOnly : Obligations.ReceiverHandlesLastFrameOnly := by
  intro s
  refine ⟨fun hr => ?_, fun hr hq => ?_, fun q f hr hq => ?_, ?_⟩
  · rw [exec_dispRx, rxPhase_idle _ _ hr]
  · rw [exec_dispRx, rxPhase_empty _ _ hr hq]
  · rw [exec_dispRx, rxPhase_last _ _ hr hq]
    exact (exec_decodeFrame f (s := s)
      (t := { s with radioFlag := false, rxq := [], trace := s.trace ++ [.cmd .clearIrq] }) rfl).symm
  · obtain ⟨hflag, hps, hpin, hrun, hreload, hbind, hblink, hled, hlast⟩ := rxPhase_kept Config.cfg s
    refine ⟨_, exec_dispRx s, hflag, hps, hpin, hrun, hreload, hbind, hblink, hled, hlast, fun hi => ?_⟩
    obtain ⟨hnv, haddr, hhops, hvariant, -⟩ := rxPhase_keepsConfig Config.cfg s hi
    exact ⟨rxPhase_stage _ s hi, hnv, haddr, hhops, hvariant⟩

end Sys2Proof.Machine
end

section
/-! PROOFS. The handshake and the status agree after every step (spec/10_state.md R48): the stage and the status, the hop
scheduler's suspension in a session (spec/41_bind_handshake.md R100), and the checksum of the captured address (R82, R104). -/

namespace Sys2Proof.Machine

/-! ### The invariant outside and inside a session -/

/-- The checksum is that of the record's address, and byte 25 is a protocol identifier (R82, R104). -/
def RecordSummed (k : U16) (r : BindRecord) : Prop :=
  k.toNat = r[0].toNat + r[1].toNat + r[2].toNat + r[3].toNat + r[4].toNat ∧ (r[25] = 0xAA#8 ∨ r[25] = 0xAB#8)

/-- The stage waits for a hop block, so the marker is in (R99). -/
def MarkerIn (s : State) : Prop := s.bindStage = .awaitHop1 ∨ s.bindStage = .awaitHop2 ∨ s.bindStage = .awaitHop3

theorem sessionCoherent_idle_iff {s : State} (hi : s.bindStage = .idle) :
    SessionCoherent s ↔ s.status ≠ .binding ∧ s.bindSavedStatus ≠ .binding ∧ s.bindCksum.toNat ≤ 1275 := by
  simp [SessionCoherent, hi]

theorem sessionCoherent_session_iff {s : State} (hs : s.bindStage ≠ .idle) :
    SessionCoherent s ↔
      s.status = .binding ∧ s.bindSavedStatus ≠ .binding ∧ s.bindCksum.toNat ≤ 1275 ∧
        (s.hopTimerRunning = false ∧ s.hopFlag = false) ∧ (MarkerIn s → RecordSummed s.bindCksum s.bindRec) := by
  simp [SessionCoherent, MarkerIn, RecordSummed, hs]

/-! ### The record from the marker on -/

theorem recordSummed_marker {v : Variant} {f : Frame} (hm : isMarker v f = true) (r : BindRecord) :
    RecordSummed (addressSum f) (recordMarker f r) := by
  obtain ⟨-, hpair, -⟩ := (isMarker_iff v f).mp hm
  have h0 : (recordMarker f r)[0] = f[3] := recordMarker_get f r 0
  have h1 : (recordMarker f r)[1] = f[4] := recordMarker_get f r 1
  have h2 : (recordMarker f r)[2] = f[5] := recordMarker_get f r 2
  have h3 : (recordMarker f r)[3] = f[6] := recordMarker_get f r 3
  have h4 : (recordMarker f r)[4] = f[7] := recordMarker_get f r 4
  have hid : (recordMarker f r)[25] = (bindPair v).1 := (recordMarker_get f r 25).trans hpair
  rw [RecordSummed, h0, h1, h2, h3, h4, hid]
  refine ⟨addressSum_toNat f, ?_⟩
  cases v
  · exact .inl rfl
  · exact .inr rfl

theorem recordSummed_congr {k : U16} {r r' : BindRecord} (h : ∀ j : Fin 26, j.val < 5 ∨ j.val = 25 → r'[j] = r[j])
    (hr : RecordSummed k r) : RecordSummed k r' := by
  obtain ⟨hsum, hid⟩ := hr
  have h0 : r'[0] = r[0] := h 0 (by decide)
  have h1 : r'[1] = r[1] := h 1 (by decide)
  have h2 : r'[2] = r[2] := h 2 (by decide)
  have h3 : r'[3] = r[3] := h 3 (by decide)
  have h4 : r'[4] = r[4] := h 4 (by decide)
  have h25 : r'[25] = r[25] := h 25 (by decide)
  rw [RecordSummed, h0, h1, h2, h3, h4, h25]
  exact ⟨hsum, hid⟩

/-- A hop block before the last writes neither the address nor the identifier (R105). -/
theorem recordSummed_block {k : U16} {r : BindRecord} (base : Nat) (hbase : base ≤ 13) (f : Frame)
    (hr : RecordSummed k r) : RecordSummed k (recordBlock base 7 f r) := by
  refine recordSummed_congr (fun j hj => ?_) hr
  rw [recordBlock_get (d := 2 + base) rfl rfl (by omega) (by decide), dif_neg (by omega)]

/-! ### Frames of a session -/

/-- What a frame does while the address is awaited: only a marker advances the stage (R86, R104). -/
theorem handleFrame_awaitAddr (c : Cfg) (f : Frame) {s : State} (h : s.bindStage = .awaitAddr) :
    (∃ v, isMarker v f = true ∧ handleFrame c f s = bindMarker0 f s) ∨ handleFrame c f s = bindRejectFrame f s := by
  have hd := decodeFrame_awaitAddr c (m := frameMode s) f h
  split_ifs at hd with h3 h4
  · exact .inl ⟨.ch3, h3, by rw [handleFrame, hd]; rfl⟩
  · exact .inl ⟨.ch4, h4, by rw [handleFrame, hd]; rfl⟩
  · exact .inr (by rw [handleFrame, hd]; rfl)

theorem bindMarker0_coherent {v : Variant} {f : Frame} {s : State} (hm : isMarker v f = true)
    (hs : s.bindStage ≠ .idle) (h : SessionCoherent s) : SessionCoherent (bindMarker0 f s) := by
  obtain ⟨hst, hsaved, -, hhop, -⟩ := (sessionCoherent_session_iff hs).mp h
  exact (sessionCoherent_session_iff (by simp [bindMarker0])).mpr
    ⟨hst, hsaved, addressSum_le f, hhop, fun _ => recordSummed_marker hm s.bindRec⟩

/-- A hop block before the last: the marker is in before it and after it. -/
theorem hopBlock_coherent {s : State} {st : BindStage} (base : Nat) (hbase : base ≤ 13) (f : Frame) (hin : MarkerIn s)
    (hst : st ≠ .idle) (h : SessionCoherent s) :
    SessionCoherent { s with bindRec := recordBlock base 7 f s.bindRec, bindStage := st } := by
  have hs : s.bindStage ≠ .idle := by rcases hin with e | e | e <;> simp [e]
  obtain ⟨hbinding, hsaved, hk, hhop, hrec⟩ := (sessionCoherent_session_iff hs).mp h
  exact (sessionCoherent_session_iff hst).mpr
    ⟨hbinding, hsaved, hk, hhop, fun _ => recordSummed_block base hbase f (hrec hin)⟩

theorem bindCommit_coherent (c : Cfg) {s : State} (h : s.bindSavedStatus ≠ .binding ∧ s.bindCksum.toNat ≤ 1275) :
    SessionCoherent (bindCommit c s) := by
  rw [bindCommit_eq]
  exact (sessionCoherent_idle_iff rfl).mpr ⟨nofun, h⟩

theorem SessionCoherent.saved {s : State} (h : SessionCoherent s) :
    s.bindSavedStatus ≠ .binding ∧ s.bindCksum.toNat ≤ 1275 := by
  obtain ⟨-, hsaved, hk, -⟩ := h
  exact ⟨hsaved, hk⟩

theorem handleFrame_session_coherent (c : Cfg) (f : Frame) {s : State} (hs : s.bindStage ≠ .idle)
    (h : SessionCoherent s) : SessionCoherent (handleFrame c f s) := by
  rcases handleFrame_bind c f s hs with ⟨ha, -⟩ | ⟨h1, e⟩ | ⟨h2, e⟩ | ⟨h3, e⟩ | e
  · rcases handleFrame_awaitAddr c f ha with ⟨v, hm, e⟩ | e <;> rw [e]
    · exact bindMarker0_coherent hm hs h
    · exact h
  · rw [e]; exact hopBlock_coherent 0 (by decide) f (.inl h1) (by decide) h
  · rw [e]; exact hopBlock_coherent 7 (by decide) f (.inr (.inl h2)) (by decide) h
  · rw [e, bindBlock3_eq]; exact bindCommit_coherent c h.saved
  · rw [e]; exact h

/-! ### The phases -/

theorem buttonPhase_coherent (c : Cfg) (s : State) (h : SessionCoherent s) : SessionCoherent (buttonPhase c s) := by
  rcases buttonPhase_cases c s with ⟨-, e⟩ | ⟨-, hi, e⟩ | ⟨-, -, -, e⟩ | ⟨-, hs, -, e⟩ <;> rw [e]
  · exact h
  · obtain ⟨hst, -, hk⟩ := (sessionCoherent_idle_iff hi).mp h
    rw [bindEnter_eq]
    exact (sessionCoherent_session_iff (by simp)).mpr ⟨rfl, hst, hk, ⟨rfl, rfl⟩, by simp [MarkerIn]⟩
  · exact h
  · obtain ⟨hst, hsaved, hk, hhop, -⟩ := (sessionCoherent_session_iff hs).mp h
    rw [bindRestart, armBeacon_eq]
    exact (sessionCoherent_session_iff (by simp)).mpr ⟨hst, hsaved, hk, hhop, by simp [MarkerIn]⟩

theorem bindPhase_coherent (c : Cfg) (s : State) (h : SessionCoherent s) : SessionCoherent (bindPhase c s) := by
  rcases bindPhase_cases c s with ⟨-, e⟩ | ⟨-, -, e⟩ | ⟨-, -, -, e⟩ | ⟨hs, -, -, e⟩ <;> rw [e]
  · exact h
  · rw [bindTimeout_eq]
    exact (sessionCoherent_idle_iff rfl).mpr ⟨h.saved.1, h.saved⟩
  · exact h
  · exact bindDrain_induction c (P := SessionCoherent) (fun _ h => h)
      (fun u f q hu _ h => handleFrame_session_coherent c f (s := { u with rxq := q }) hu h) _ _ hs h

/-- Outside a session only the status is left to agree with the stage, and no data phase sets Binding (R119, R126). -/
theorem coherent_of_data {s t : State} (hi : s.bindStage = .idle) (h : SessionCoherent s)
    (ht : t.bindStage = s.bindStage ∧ t.bindSavedStatus = s.bindSavedStatus ∧ t.bindCksum = s.bindCksum)
    (hst : t.status = s.status ∨ t.status ≠ .binding) : SessionCoherent t := by
  obtain ⟨hne, hsaved, hk⟩ := (sessionCoherent_idle_iff hi).mp h
  obtain ⟨hstage, hsaved', hk'⟩ := ht
  refine (sessionCoherent_idle_iff (hstage.trans hi)).mpr ⟨?_, by rwa [hsaved'], by rwa [hk']⟩
  rcases hst with e | hne'
  · rwa [e]
  · exact hne'

theorem handleFrame_data_coherent (c : Cfg) (s : State) (f : Frame) (hi : s.bindStage = .idle)
    (h : SessionCoherent s) : SessionCoherent (handleFrame c f s) := by
  rcases handleFrame_data c f s hi with ⟨-, e⟩ | ⟨-, e | e | e⟩ <;> rw [e]
  · rw [stickFrame_eq]; exact coherent_of_data hi h ⟨rfl, rfl, rfl⟩ (.inr nofun)
  · rw [failsafeEnableFrame_eq]; exact coherent_of_data hi h ⟨rfl, rfl, rfl⟩ (.inl rfl)
  · rw [failsafeDisableFrame_eq]; exact coherent_of_data hi h ⟨rfl, rfl, rfl⟩ (.inl rfl)
  · exact h

theorem rxPhase_coherent (c : Cfg) (s : State) (hi : s.bindStage = .idle) (h : SessionCoherent s) :
    SessionCoherent (rxPhase c s) :=
  rxPhase_keeps c s hi h h (handleFrame_data_coherent c)

theorem fsPhase_coherent (c : Cfg) (s : State) (hi : s.bindStage = .idle) (h : SessionCoherent s) :
    SessionCoherent (fsPhase c s) := by
  rcases fsPhase_cases c s with ⟨-, e⟩ | ⟨-, -, e⟩ <;> rw [e]
  · exact h
  · exact coherent_of_data hi h ⟨rfl, rfl, rfl⟩ (.inr nofun)

theorem hopPhase_coherent (c : Cfg) (s : State) (hi : s.bindStage = .idle) (h : SessionCoherent s) :
    SessionCoherent (hopPhase c s) := by
  rcases hopPhase_cases c s with ⟨-, e⟩ | ⟨-, -, e⟩ | ⟨-, -, e⟩ <;> rw [e]
  · exact h
  · exact coherent_of_data hi h ⟨rfl, rfl, rfl⟩ (.inl rfl)
  · exact coherent_of_data hi h ⟨rfl, rfl, rfl⟩ (.inl rfl)

theorem dispatch_coherent (c : Cfg) (b : Bool) (s : State) (h : SessionCoherent s) : SessionCoherent (dispatch c b s) :=
  dispatch_keeps c s b h (fun _ h => h) (buttonPhase_coherent c) (bindPhase_coherent c) (rxPhase_coherent c)
    (fsPhase_coherent c) (hopPhase_coherent c) (fun s h => by rw [ledPhase_eq]; exact h)

/-! ### The other events -/

theorem resetBlock_coherent (c : Cfg) (pb : PulseBuffer) (sel : Fin 2) (s : State) :
    SessionCoherent (resetBlock c pb sel s) := by
  obtain ⟨_, _, _, _, e⟩ := resetBlock_eq c pb sel s
  rw [e]
  exact (sessionCoherent_idle_iff rfl).mpr ⟨nofun, nofun, Nat.zero_le 1275⟩

/-- The hop timer that expires runs, so no session is active (R100, R114). -/
theorem hopExpire_coherent (s : State) (hrun : s.hopTimerRunning = true) (h : SessionCoherent s) :
    SessionCoherent (hopExpire s) := by
  have hi : s.bindStage = .idle := by
    by_contra hs
    obtain ⟨-, -, -, ⟨hstop, -⟩, -⟩ := (sessionCoherent_session_iff hs).mp h
    exact Bool.noConfusion (hstop.symm.trans hrun)
  exact coherent_of_data hi h ⟨rfl, rfl, rfl⟩ (.inl rfl)

theorem pulseEnter_coherent (c : Cfg) (s : State) (k : Fin 4) (h : SessionCoherent s) :
    SessionCoherent (pulseEnter c k s) := by
  rw [pulseEnter_eq]; exact h

theorem pulseOff_coherent (c : Cfg) (s : State) (k : Fin 4) (h : SessionCoherent s) :
    SessionCoherent (pulseOff c k s) := by
  rw [pulseOff_eq]; exact h

/-- Settles O56, event by event: RESET establishes the agreement, a dispatch keeps it phase by phase, the hop timer expires
only outside a session, and the radio's and the pulse generator's events write none of its fields. -/
theorem stepKeepsSessionCoherent : Obligations.StepKeepsSessionCoherent := by
  intro s t hp h hs
  obtain ⟨s₀, rest, rfl, hcases⟩ := step_event_cases s t hp hs
  have h₀ : SessionCoherent { s with input := rest, port := .event } := h
  rcases hcases with rfl | ⟨b, rfl⟩ | ⟨f, rfl⟩ | rfl | ⟨hrun, rfl⟩ | ⟨k, -, -, rfl⟩ | rfl
  · exact resetBlock_coherent _ _ _ _
  · exact dispatch_coherent _ b _ h₀
  · rcases radioReceive_cases Config.cfg { s with input := rest, port := .event } f with e | ⟨-, -, e⟩ <;> rw [e]
    · exact h₀
    · exact h₀
  · exact h₀
  · exact hopExpire_coherent _ hrun h₀
  · exact pulseNext_keeps _ _ k (fun k => pulseEnter_coherent _ _ k h₀) (fun k => pulseOff_coherent _ _ k h₀)
  · exact trainStart_keeps _ _ (pulseEnter_coherent _ _ 0 h₀) h₀

end Sys2Proof.Machine
end

section
/-! PROOFS. A whole bind session (spec/41_bind_handshake.md R112): the four packets of a transmitter, with rejected frames in
every gap, commit its address, hop table and identifier, in one queue or spread over dispatches. -/

namespace Sys2Proof.Machine

/-! ### The record of a transmitter -/

/-- The record that a transmitter's four packets put together (R79, R84, R104). -/
def transmittedRecord (v : Variant) (a : Address) (h : HopTable) : BindRecord :=
  Vector.ofFn fun j =>
    if ha : j.val < 5 then a[j.val] else if hh : j.val < 25 then h[j.val - 5] else (bindPair v).1

theorem transmittedRecord_get (v : Variant) (a : Address) (h : HopTable) (j : Fin 26) :
    (transmittedRecord v a h)[j] =
      if ha : j.val < 5 then a[j.val] else if hh : j.val < 25 then h[j.val - 5] else (bindPair v).1 := by
  simp [transmittedRecord]

theorem transmittedRecord_address (v : Variant) (a : Address) (h : HopTable) (i : Fin 5) :
    (transmittedRecord v a h)[i.val] = a[i] := by
  simp [transmittedRecord]

theorem transmittedRecord_hop (v : Variant) (a : Address) (h : HopTable) (i : Fin 20) :
    (transmittedRecord v a h)[5 + i.val] = h[i] := by
  have hin : 5 + i.val < 25 := by omega
  simp [transmittedRecord, hin]

theorem transmittedRecord_identifier (v : Variant) (a : Address) (h : HopTable) :
    (transmittedRecord v a h)[25] = (bindPair v).1 := transmittedRecord_get v a h 25

theorem recordAddress_transmitted (v : Variant) (a : Address) (h : HopTable) :
    recordAddress (transmittedRecord v a h) = a :=
  Vector.ext fun i hi => by simpa [recordAddress] using transmittedRecord_address v a h ⟨i, hi⟩

theorem recordHops_transmitted (v : Variant) (a : Address) (h : HopTable) :
    recordHops (transmittedRecord v a h) = h :=
  Vector.ext fun i hi => by simpa [recordHops] using transmittedRecord_hop v a h ⟨i, hi⟩

theorem recordVariant_transmitted (v : Variant) (a : Address) (h : HopTable) :
    recordVariant (transmittedRecord v a h) = v := by
  rw [recordVariant, transmittedRecord_identifier]
  cases v <;> rfl

/-- The packets' four writes, whatever the record held before. -/
theorem recordBlock_transmitted {v : Variant} {a : Address} {h : HopTable} {mk b₁ b₂ b₃ : Frame} (r : BindRecord)
    (hm : isMarker v mk = true) (ha : ∀ i : Fin 5, mk[3 + i.val] = a[i]) (h₁ : ∀ i : Fin 7, b₁[3 + i.val] = h[i.val])
    (h₂ : ∀ i : Fin 7, b₂[3 + i.val] = h[7 + i.val]) (h₃ : ∀ i : Fin 6, b₃[3 + i.val] = h[14 + i.val]) :
    recordBlock 14 6 b₃ (recordBlock 7 7 b₂ (recordBlock 0 7 b₁ (recordMarker mk r))) = transmittedRecord v a h := by
  have hget : ∀ j : Fin 26,
      (recordBlock 14 6 b₃ (recordBlock 7 7 b₂ (recordBlock 0 7 b₁ (recordMarker mk r))))[j] =
        (transmittedRecord v a h)[j] := by
    intro j
    rw [recordBlock_third_get, recordBlock_second_get, recordBlock_first_get, recordMarker_get, transmittedRecord_get]
    have hwindow : j.val < 5 ∨ (5 ≤ j.val ∧ j.val < 12) ∨ (12 ≤ j.val ∧ j.val < 19) ∨ (19 ≤ j.val ∧ j.val < 25) ∨
        j.val = 25 := by omega
    rcases hwindow with hj | hj | hj | hj | hj
    · simp (disch := omega) only [dif_neg, dif_pos]
      exact ha ⟨j, hj⟩
    · have hpos : j.val - 2 = 3 + (j.val - 5) := by omega
      simp (disch := omega) only [dif_neg, dif_pos, hpos]
      exact h₁ ⟨j - 5, by omega⟩
    · have hpos : j.val - 9 = 3 + (j.val - 12) := by omega
      have hentry : j.val - 5 = 7 + (j.val - 12) := by omega
      simp (disch := omega) only [dif_neg, dif_pos, hpos, hentry]
      exact h₂ ⟨j - 12, by omega⟩
    · have hpos : j.val - 16 = 3 + (j.val - 19) := by omega
      have hentry : j.val - 5 = 14 + (j.val - 19) := by omega
      simp (disch := omega) only [dif_neg, dif_pos, hpos, hentry]
      exact h₃ ⟨j - 19, by omega⟩
    · have hid : j = 25 := Fin.ext hj
      subst hid
      exact ((isMarker_iff v mk).mp hm).2.1
  exact Vector.ext fun j hj => hget ⟨j, hj⟩

/-! ### The frames a session still waits for -/

/-- The frames that, arriving in order at a stage with a checksum and a record, end the session by the commit of a record:
each is rejected by the stage that meets it or is the packet that stage waits for, and the last is the third hop block. -/
inductive Completes (final : BindRecord) : BindStage → U16 → BindRecord → List Frame → Prop
  | rejected {st k r f fs} (hf : ∀ v, stageAccepts ⟨st, k, v⟩ f = false) (h : Completes final st k r fs) :
      Completes final st k r (f :: fs)
  | marker {v k r f fs} (hf : isMarker v f = true)
      (h : Completes final .awaitHop1 (addressSum f) (recordMarker f r) fs) : Completes final .awaitAddr k r (f :: fs)
  | block1 {k r f fs} (hf : isHopBlock k 0#8 f = true) (h : Completes final .awaitHop2 k (recordBlock 0 7 f r) fs) :
      Completes final .awaitHop1 k r (f :: fs)
  | block2 {k r f fs} (hf : isHopBlock k 1#8 f = true) (h : Completes final .awaitHop3 k (recordBlock 7 7 f r) fs) :
      Completes final .awaitHop2 k r (f :: fs)
  | block3 {k r f} (hf : isHopBlock k 2#8 f = true) (hr : recordBlock 14 6 f r = final) :
      Completes final .awaitHop3 k r [f]

section Completes

variable {final : BindRecord} {st : BindStage} {k : U16} {r : BindRecord} {fs : List Frame}

/-- What the first of the frames can be. -/
theorem Completes.cons_cases {f : Frame} (h : Completes final st k r (f :: fs)) :
    ((∀ v, stageAccepts ⟨st, k, v⟩ f = false) ∧ Completes final st k r fs) ∨
      (st = .awaitAddr ∧ ∃ v, isMarker v f = true ∧
        Completes final .awaitHop1 (addressSum f) (recordMarker f r) fs) ∨
      (st = .awaitHop1 ∧ isHopBlock k 0#8 f = true ∧ Completes final .awaitHop2 k (recordBlock 0 7 f r) fs) ∨
      (st = .awaitHop2 ∧ isHopBlock k 1#8 f = true ∧ Completes final .awaitHop3 k (recordBlock 7 7 f r) fs) ∨
      (st = .awaitHop3 ∧ isHopBlock k 2#8 f = true ∧ recordBlock 14 6 f r = final ∧ fs = []) := by
  cases h with
  | rejected hf h => exact .inl ⟨hf, h⟩
  | marker hf h => exact .inr (.inl ⟨rfl, _, hf, h⟩)
  | block1 hf h => exact .inr (.inr (.inl ⟨rfl, hf, h⟩))
  | block2 hf h => exact .inr (.inr (.inr (.inl ⟨rfl, hf, h⟩)))
  | block3 hf hr => exact .inr (.inr (.inr (.inr ⟨rfl, hf, hr, rfl⟩)))

/-- Rejected frames may come first. -/
theorem Completes.after_rejected (h : Completes final st k r fs) {j : List Frame}
    (hj : ∀ f ∈ j, ∀ v, stageAccepts ⟨st, k, v⟩ f = false) :
    Completes final st k r (j ++ fs) := by
  induction j with
  | nil => exact h
  | cons f j ih =>
    obtain ⟨hf, hj⟩ := List.forall_mem_cons.mp hj
    exact .rejected hf (ih hj)

theorem Completes.not_nil (h : Completes final st k r []) : False := nomatch h

theorem Completes.session (h : Completes final st k r fs) : st ≠ .idle := by
  induction h with
  | rejected _ _ ih => exact ih
  | marker => exact nofun
  | block1 => exact nofun
  | block2 => exact nofun
  | block3 => exact nofun

end Completes

/-- The four packets complete a session that awaits the address (R112). -/
theorem BindPackets.completes {v : Variant} {a : Address} {h : HopTable} {fs : List Frame} (hp : BindPackets v a h fs)
    (k : U16) (r : BindRecord) : Completes (transmittedRecord v a h) .awaitAddr k r fs := by
  obtain ⟨k', mk, b₁, b₂, b₃, j₀, j₁, j₂, j₃, rfl, hm, ha, hk, hb₁, h₁, hb₂, h₂, hb₃, h₃, hj₀, hj₁, hj₂, hj₃⟩ := hp
  have hsum : k' = addressSum mk := by
    have h0 : mk[3] = a[0] := ha 0
    have h1 : mk[4] = a[1] := ha 1
    have h2 : mk[5] = a[2] := ha 2
    have h3 : mk[6] = a[3] := ha 3
    have h4 : mk[7] = a[4] := ha 4
    exact BitVec.eq_of_toNat_eq (by rw [hk, addressSum_toNat, h0, h1, h2, h3, h4])
  subst hsum
  have hend := Completes.block3 hb₃ (recordBlock_transmitted r hm ha h₁ h₂ h₃)
  have hthird := hend.after_rejected (j := j₃) fun f hf _ => hj₃ f hf
  have hsecond := (Completes.block2 hb₂ hthird).after_rejected (j := j₂) fun f hf _ => hj₂ f hf
  have hfirst := (Completes.block1 hb₁ hsecond).after_rejected (j := j₁) fun f hf _ => hj₁ f hf
  exact (Completes.marker hm hfirst).after_rejected fun f hf _ => by simp only [stageAccepts, hj₀ f hf, Bool.or_self]

/-! ### One queue -/

/-- The frames complete the session that a state is in. -/
def Awaits (final : BindRecord) (s : State) (fs : List Frame) : Prop :=
  Completes final s.bindStage s.bindCksum s.bindRec fs

theorem handleFrame_of_wellFormed (c : Cfg) {op : FrameOp} {f : Frame} {s : State}
    (hw : WellFormed c (frameMode s) (frameInstr op f) = true) : handleFrame c f s = runFrame c op f s := by
  rw [handleFrame, decodeFrame_of_wellFormed c hw]

/-- The first frame brings the session one frame closer to its commit, or is the one that commits. -/
theorem handleFrame_awaits (c : Cfg) {final : BindRecord} {s : State} {f : Frame} {fs : List Frame}
    (h : Awaits final s (f :: fs)) :
    Awaits final (handleFrame c f s) fs ∨ (fs = [] ∧ handleFrame c f s = bindCommit c { s with bindRec := final }) := by
  have hs := h.session
  rcases h.cons_cases with ⟨hf, h⟩ | ⟨hst, v, hf, h⟩ | ⟨hst, hf, h⟩ | ⟨hst, hf, h⟩ | ⟨hst, hf, hfinal, hnil⟩
  · have e : handleFrame c f s = bindRejectFrame f s :=
      handleFrame_of_wellFormed c (op := .bindReject) (by simp [frameInstr, WellFormed, frameMode, hs, hf])
    exact .inl (by rw [e]; exact h)
  · have e : handleFrame c f s = bindMarker0 f s := by
      cases v
      · exact handleFrame_of_wellFormed c (op := .bind0Ch3) (by simp [frameInstr, WellFormed, frameMode, hst, hf])
      · exact handleFrame_of_wellFormed c (op := .bind0Ch4) (by simp [frameInstr, WellFormed, frameMode, hst, hf])
    exact .inl (by rw [e]; exact h)
  · have e : handleFrame c f s = bindBlock1 f s :=
      handleFrame_of_wellFormed c (op := .bindBlk1) (by simp [frameInstr, WellFormed, frameMode, hst, hf])
    exact .inl (by rw [e]; exact h)
  · have e : handleFrame c f s = bindBlock2 f s :=
      handleFrame_of_wellFormed c (op := .bindBlk2) (by simp [frameInstr, WellFormed, frameMode, hst, hf])
    exact .inl (by rw [e]; exact h)
  · have e : handleFrame c f s = bindBlock3 c f s :=
      handleFrame_of_wellFormed c (op := .bindBlk3) (by simp [frameInstr, WellFormed, frameMode, hst, hf])
    exact .inr ⟨hnil, by rw [e, bindBlock3_eq, hfinal]⟩

/-- The drain of a queue that does not yet hold the last packet. -/
theorem bindDrain_awaits (c : Cfg) {final : BindRecord} {s : State} {fs rest : List Frame} {n : Nat} (hq : s.rxq = fs)
    (hn : fs.length ≤ n) (hrest : rest ≠ []) (h : Awaits final s (fs ++ rest)) :
    Awaits final (bindDrain c n s) rest ∧ (bindDrain c n s).rxq = [] := by
  induction fs generalizing s n with
  | nil =>
    rw [bindDrain_nil c s n hq]
    exact ⟨h, hq⟩
  | cons f fs ih =>
    obtain ⟨n, rfl⟩ : ∃ m, n = m + 1 := Nat.exists_eq_succ_of_ne_zero (by simp at hn; omega)
    rw [bindDrain_cons c f s n fs hq]
    rcases handleFrame_awaits c (s := { s with rxq := fs }) h with hu | ⟨hnil, -⟩
    · obtain ⟨hrxq, -⟩ := handleFrame_session c f { s with rxq := fs } h.session hu.session
      rw [if_neg hu.session]
      exact ih hrxq (Nat.le_of_succ_le_succ hn) hu
    · exact absurd (List.append_eq_nil_iff.mp hnil).2 hrest

/-- The drain of a queue that holds the last packet ends with the commit, whatever is queued after it. -/
theorem bindDrain_commits (c : Cfg) {final : BindRecord} {s : State} {fs j : List Frame} {n : Nat}
    (hq : s.rxq = fs ++ j) (hn : (fs ++ j).length ≤ n) (h : Awaits final s fs) :
    ∃ u : State, bindDrain c n s = bindCommit c { u with bindRec := final } := by
  induction fs generalizing s n with
  | nil => exact h.not_nil.elim
  | cons f fs ih =>
    obtain ⟨n, rfl⟩ : ∃ m, n = m + 1 := Nat.exists_eq_succ_of_ne_zero (by simp at hn; omega)
    rw [bindDrain_cons c f s n (fs ++ j) hq]
    rcases handleFrame_awaits c (s := { s with rxq := fs ++ j }) h with hu | ⟨-, e⟩
    · obtain ⟨hrxq, -⟩ := handleFrame_session c f { s with rxq := fs ++ j } h.session hu.session
      rw [if_neg hu.session]
      exact ih hrxq (Nat.le_of_succ_le_succ hn) hu
    · rw [e, if_pos (by rw [bindCommit_eq])]
      exact ⟨{ s with rxq := fs ++ j }, rfl⟩

theorem bindCommit_boundTo (c : Cfg) (v : Variant) (a : Address) (h : HopTable) (u : State) :
    BoundTo v a h (bindCommit c { u with bindRec := transmittedRecord v a h }) := by
  rw [bindCommit_eq]
  simp only [recordAddress_transmitted, recordHops_transmitted, recordVariant_transmitted]
  exact ⟨⟨_, rfl, transmittedRecord_address v a h, transmittedRecord_hop v a h, transmittedRecord_identifier v a h⟩,
    rfl, rfl, rfl, rfl, rfl, rfl, rfl⟩

theorem bindCommit_clears (c : Cfg) (s : State) :
    (bindCommit c s).bindStage = .idle ∧ (bindCommit c s).status = .idle ∧ (bindCommit c s).radioFlag = false ∧
      (bindCommit c s).hopFlag = false := by
  rw [bindCommit_eq]
  exact ⟨rfl, rfl, rfl, rfl⟩

/-! ### One dispatch of a session -/

/-- A session in which a dispatch's button sample has been taken and the bind phase comes next: a press was dropped, since
`REBIND_POLICY` is IGNORE (R95, D12). -/
def afterButton (b : Bool) (s : State) : State := { tickPhase b s with bindRequest := false }

theorem afterButton_bindTimer (b : Bool) (s : State) : (afterButton b s).bindTimer = s.bindTimer - 1 :=
  satdec_eq s.bindTimer

theorem afterButton_fsTimer (b : Bool) (s : State) : (afterButton b s).fsTimer = s.fsTimer - 1 := satdec_eq s.fsTimer

theorem buttonPhase_session_ignores (s : State) (hs : s.bindStage ≠ .idle) :
    buttonPhase Config.cfg s = { s with bindRequest := false } := by
  rcases buttonPhase_cases Config.cfg s with ⟨hr, e⟩ | ⟨-, hi, -⟩ | ⟨-, -, -, e⟩ | ⟨-, -, hp, -⟩
  · rw [e, ← hr]
  · exact absurd hi hs
  · exact e
  · exact nomatch hp

/-- A dispatch that a session stays active through is its bind phase and the LED phase (R94). -/
theorem dispatch_session (b : Bool) (s : State) (hs : s.bindStage ≠ .idle)
    (h : (bindPhase Config.cfg (afterButton b s)).bindStage ≠ .idle) :
    dispatch Config.cfg b s = ledPhase Config.cfg (bindPhase Config.cfg (afterButton b s)) := by
  have e : buttonPhase Config.cfg (tickPhase b s) = afterButton b s := buttonPhase_session_ignores _ hs
  simp only [dispatch, e, if_neg h]

/-- A dispatch that ends a session goes on with the data phases. -/
theorem dispatch_session_ends (b : Bool) (s : State) (hs : s.bindStage ≠ .idle)
    (h : (bindPhase Config.cfg (afterButton b s)).bindStage = .idle) :
    dispatch Config.cfg b s =
      ledPhase Config.cfg (dataPhases Config.cfg (bindPhase Config.cfg (afterButton b s))) := by
  have e : buttonPhase Config.cfg (tickPhase b s) = afterButton b s := buttonPhase_session_ignores _ hs
  simp only [dispatch, e, if_pos h]

/-- Right after a commit there is nothing to receive and no hop pending, so of the data phases only the failsafe phase can
act (R109, R119, R126). -/
theorem dataPhases_quiet (c : Cfg) (s : State) (hr : s.radioFlag = false) (hf : s.hopFlag = false) :
    dataPhases c s = fsPhase c s := by
  have hflag : (fsPhase c s).hopFlag = false := by
    rcases fsPhase_cases c s with ⟨-, e⟩ | ⟨-, -, e⟩ <;> rw [e] <;> exact hf
  rw [dataPhases, rxPhase_idle c s hr, hopPhase_idle c _ hflag]

theorem fsPhase_status (c : Cfg) (s : State) :
    (fsPhase c s).status = if s.everReceived = true ∧ s.fsTimer = 0 then .failsafe else s.status := by
  rcases fsPhase_cases c s with ⟨hno, e⟩ | ⟨he, ht, e⟩ <;> rw [e]
  · have hnot : ¬(s.everReceived = true ∧ s.fsTimer = 0) := by
      rintro ⟨he, ht⟩
      simp [he, ht] at hno
    exact (if_neg hnot).symm
  · exact (if_pos ⟨he, ht⟩).symm

theorem fsPhase_boundTo {v : Variant} {a : Address} {h : HopTable} (c : Cfg) {s : State} (hb : BoundTo v a h s) :
    BoundTo v a h (fsPhase c s) := by
  rcases fsPhase_cases c s with ⟨-, e⟩ | ⟨-, -, e⟩ <;> rw [e] <;> exact hb

theorem ledPhase_status (c : Cfg) (s : State) : (ledPhase c s).status = s.status := by rw [ledPhase_eq]

theorem ledPhase_boundTo {v : Variant} {a : Address} {h : HopTable} (c : Cfg) {s : State} (hb : BoundTo v a h s) :
    BoundTo v a h (ledPhase c s) := by
  rw [ledPhase_eq]; exact hb

/-! ### Frames received, then a dispatch -/

/-- Frames that arrive while the radio listens and the queue has room are queued in their order (R96). -/
theorem runAll_rxf (fs : List Frame) (s : State) (hce : s.radioCe = true)
    (hroom : s.rxq.length + fs.length ≤ Config.cfg.rxQueueDepth) :
    runAll (fs.map .rxf) s = .next { s with rxq := s.rxq ++ fs } := by
  induction fs generalizing s with
  | nil => simp [runAll]
  | cons f fs ih =>
    have hlen : (f :: fs).length = fs.length + 1 := rfl
    have e : exec (.rxf f) s = .next { s with rxq := s.rxq ++ [f] } := by
      rw [exec_rxf, radioReceive, if_neg (by simp [hce]), if_neg (by omega)]
    have hroom' : (s.rxq ++ [f]).length + fs.length ≤ Config.cfg.rxQueueDepth := by
      rw [List.length_append, List.length_singleton]; omega
    rw [List.map_cons, runAll, e]
    simp only [ih { s with rxq := s.rxq ++ [f] } hce hroom', List.append_assoc, List.cons_append, List.nil_append]

/-- The frames queued, and the radio's interrupt raised (R96, R97). -/
def received (fs : List Frame) (s : State) : State := { s with rxq := fs, radioFlag := true }

theorem runAll_receiveAndTick (fs : List Frame) (b : Bool) (s : State) (hq : s.rxq = []) (hce : s.radioCe = true)
    (hroom : fs.length ≤ Config.cfg.rxQueueDepth) :
    runAll (receiveAndTick fs b) s = .next (dispatch Config.cfg b (received fs s)) := by
  rw [receiveAndTick, runAll_append, runAll_rxf fs s hce (by simpa [hq] using hroom), hq]
  rfl

/-! ### A session spread over dispatches -/

/-- A session that listens with an empty queue, and that the frames complete. -/
def Listening (final : BindRecord) (s : State) (fs : List Frame) : Prop :=
  Awaits final s fs ∧ s.rxq = [] ∧ s.radioCe = true

theorem radioCe_keptByRoutine (c : Cfg) : KeptByRoutine c (fun s => s.radioCe = true) where
  enter s _ _ := by rw [bindEnter_eq]
  restart s _ _ := by rw [bindRestart, armBeacon_eq]
  timeout s _ _ := by rw [bindTimeout_eq]
  failsafeFrame s _ _ h := by rw [hopValid_eq]; exact h
  fs s h := by rcases fsPhase_cases c s with ⟨-, e⟩ | ⟨-, -, e⟩ <;> rw [e] <;> exact h
  hop s _ h := by rcases hopPhase_cases c s with ⟨-, e⟩ | ⟨-, -, e⟩ | ⟨-, -, e⟩ <;> rw [e] <;> exact h
  led s h := by rw [ledPhase_eq]; exact h

theorem bindPhase_radioCe (c : Cfg) (s : State) (h : s.radioCe = true) : (bindPhase c s).radioCe = true :=
  (radioCe_keptByRoutine c).bindPhase (fun s r _ => by rw [bindCommit_eq]) s h

/-- A dispatch of a session that has received frames and has time left drains them, one tick later (R103, R144). -/
theorem bindPhase_received (c : Cfg) (b : Bool) (s : State) (fs : List Frame) (hs : s.bindStage ≠ .idle)
    (ht : 1 < s.bindTimer) :
    bindPhase c (afterButton b (received fs s)) =
      bindDrain c fs.length { afterButton b s with rxq := fs, radioFlag := false } :=
  have htime : (afterButton b (received fs s)).bindTimer ≠ 0 := by
    rw [afterButton_bindTimer]
    exact Nat.sub_ne_zero_of_lt ht
  bindPhase_drains c _ hs htime rfl

/-- Its two countdowns are one tick lower after it, whatever the frames did (R103, R144). -/
theorem bindPhase_received_kept (c : Cfg) (b : Bool) (s : State) (fs : List Frame) :
    (bindPhase c (afterButton b (received fs s))).bindTimer = s.bindTimer - 1 ∧
      (bindPhase c (afterButton b (received fs s))).fsTimer = s.fsTimer - 1 ∧
      (bindPhase c (afterButton b (received fs s))).everReceived = s.everReceived := by
  obtain ⟨⟨hfs, hbind, -, hever, -⟩, -⟩ := bindPhase_kept c (afterButton b (received fs s))
  exact ⟨hbind.trans (afterButton_bindTimer b _), hfs.trans (afterButton_fsTimer b _), hever⟩

/-- A dispatch whose frames do not yet complete the session. -/
theorem receiveAndTick_goesOn {final : BindRecord} {s : State} {fs rest : List Frame} (b : Bool) (hrest : rest ≠ [])
    (h : Listening final s (fs ++ rest)) (ht : 1 < s.bindTimer) (hroom : fs.length ≤ Config.cfg.rxQueueDepth) :
    ∃ t, runAll (receiveAndTick fs b) s = .next t ∧ Listening final t rest ∧ t.bindTimer = s.bindTimer - 1 ∧
      t.fsTimer = s.fsTimer - 1 ∧ t.everReceived = s.everReceived := by
  obtain ⟨haw, hq, hce⟩ := h
  have hs : s.bindStage ≠ .idle := haw.session
  have hdrain : Awaits final (bindPhase Config.cfg (afterButton b (received fs s))) rest ∧
      (bindPhase Config.cfg (afterButton b (received fs s))).rxq = [] := by
    rw [bindPhase_received _ b s fs hs ht]
    exact bindDrain_awaits Config.cfg (s := { afterButton b s with rxq := fs, radioFlag := false }) rfl le_rfl hrest haw
  obtain ⟨haw', hq'⟩ := hdrain
  have hce' := bindPhase_radioCe Config.cfg (afterButton b (received fs s)) hce
  refine ⟨_, runAll_receiveAndTick fs b s hq hce hroom, ?_⟩
  rw [dispatch_session b (received fs s) hs haw'.session, ledPhase_eq]
  exact ⟨⟨haw', hq', hce'⟩, bindPhase_received_kept Config.cfg b s fs⟩

/-- The dispatch whose frames complete the session (R107, R126). -/
theorem receiveAndTick_commits {v : Variant} {a : Address} {h : HopTable} {s : State} {fs : List Frame} (j : List Frame)
    (b : Bool) (hl : Listening (transmittedRecord v a h) s fs) (ht : 1 < s.bindTimer)
    (hroom : (fs ++ j).length ≤ Config.cfg.rxQueueDepth) :
    ∃ t, runAll (receiveAndTick (fs ++ j) b) s = .next t ∧ BoundTo v a h t ∧
      t.status = if s.everReceived = true ∧ s.fsTimer ≤ 1 then .failsafe else .idle := by
  obtain ⟨haw, hq, hce⟩ := hl
  have hs : s.bindStage ≠ .idle := haw.session
  obtain ⟨u, hcommit⟩ : ∃ u : State, bindPhase Config.cfg (afterButton b (received (fs ++ j) s)) =
      bindCommit Config.cfg { u with bindRec := transmittedRecord v a h } := by
    rw [bindPhase_received _ b s (fs ++ j) hs ht]
    exact bindDrain_commits Config.cfg (s := { afterButton b s with rxq := fs ++ j, radioFlag := false }) rfl le_rfl haw
  have hbound := bindCommit_boundTo Config.cfg v a h u
  have hclear := bindCommit_clears Config.cfg { u with bindRec := transmittedRecord v a h }
  rw [← hcommit] at hbound hclear
  obtain ⟨hstage, hidle, hflag, hhop⟩ := hclear
  obtain ⟨-, hfs, hever⟩ := bindPhase_received_kept Config.cfg b s (fs ++ j)
  refine ⟨_, runAll_receiveAndTick (fs ++ j) b s hq hce hroom, ?_⟩
  rw [dispatch_session_ends b (received (fs ++ j) s) hs hstage, dataPhases_quiet _ _ hflag hhop]
  refine ⟨ledPhase_boundTo _ (fsPhase_boundTo _ hbound), ?_⟩
  rw [ledPhase_status, fsPhase_status, hever, hfs, hidle]
  simp only [Nat.sub_eq_zero_iff_le]

/-- Batches of frames, each before a dispatch, that the session takes without completing, and the batch that completes it. -/
theorem runAll_session_commits {v : Variant} {a : Address} {h : HopTable} (qs : List (List Frame × Bool))
    {q : List Frame} (j : List Frame) (b : Bool) (s : State) (hq : q ≠ [])
    (hl : Listening (transmittedRecord v a h) s ((qs.map (·.1)).flatten ++ q)) (ht : qs.length + 1 < s.bindTimer)
    (hqs : ∀ p ∈ qs, p.1.length ≤ Config.cfg.rxQueueDepth) (hroom : (q ++ j).length ≤ Config.cfg.rxQueueDepth) :
    ∃ t, runAll ((qs.map (fun p => receiveAndTick p.1 p.2)).flatten ++ receiveAndTick (q ++ j) b) s = .next t ∧
      BoundTo v a h t ∧
      t.status = if s.everReceived = true ∧ s.fsTimer ≤ qs.length + 1 then .failsafe else .idle := by
  induction qs generalizing s with
  | nil => exact receiveAndTick_commits j b hl ht hroom
  | cons p qs ih =>
    rw [List.length_cons] at ht ⊢
    rw [List.map_cons, List.flatten_cons, List.append_assoc] at hl
    obtain ⟨hp, hqs⟩ := List.forall_mem_cons.mp hqs
    obtain ⟨t, hrun, hl', hbind, hfs, hever⟩ := receiveAndTick_goesOn p.2 (by simp [hq]) hl (by omega) hp
    obtain ⟨t', hrun', hbound, hst⟩ := ih t hl' (by omega) hqs
    refine ⟨t', ?_, hbound, ?_⟩
    · rw [List.map_cons, List.flatten_cons, List.append_assoc, runAll_append, hrun]
      exact hrun'
    · rw [hst, hever, hfs]
      simp only [Nat.sub_le_iff_le_add]

/-- Settles O27: in one queue the drain of the bind phase ends with the commit; over dispatches each batch before the last
leaves the session waiting for the rest. -/
theorem bindSessionPersistsTransmittedRecord : Obligations.BindSessionPersistsTransmittedRecord := by
  refine ⟨fun s v a h fs j hst ht hr hp hq => ?_, fun s v a h qs q j b hst hq hce ht hp hne hqs hroom => ?_⟩
  · have hs : s.bindStage ≠ .idle := by rw [hst]; exact nofun
    have haw : Awaits (transmittedRecord v a h) s fs := by rw [Awaits, hst]; exact hp.completes _ _
    obtain ⟨u, hcommit⟩ := bindDrain_commits Config.cfg (s := { s with radioFlag := false }) (n := s.rxq.length) hq
      (by rw [hq]) haw
    obtain ⟨-, hidle, -⟩ := bindCommit_clears Config.cfg { u with bindRec := transmittedRecord v a h }
    refine ⟨_, exec_dispBind s, ?_⟩
    rw [bindPhase_drains _ s hs ht hr, hcommit]
    exact ⟨bindCommit_boundTo _ v a h u, hidle⟩
  · have haw : Awaits (transmittedRecord v a h) s ((qs.map (·.1)).flatten ++ q) := by
      rw [Awaits, hst]; exact hp.completes _ _
    exact runAll_session_commits qs j b s hne ⟨haw, hq, hce⟩ ht hqs hroom

end Sys2Proof.Machine
end

section
/-! PROOFS. The button phase, and one dispatch as its phases in order (spec/40_dispatch.md R93 to R95). -/

namespace Sys2Proof.Machine

/-! ### The phases as operations of their own -/

theorem exec_dispButton (s : State) : exec .dispButton s = .next (buttonPhase Config.cfg s) := rfl

theorem exec_dispFs (s : State) : exec .dispFs s = .next (fsPhase Config.cfg s) := rfl

theorem exec_dispLed (s : State) : exec .dispLed s = .next (ledPhase Config.cfg s) := rfl

theorem exec_bindEnter (s : State) : exec .bindEnter s = .next (bindEnter Config.cfg s) := rfl

/-! ### The button phase -/

/-- A request outside a session begins one (R95, R100). -/
theorem buttonPhase_enters (c : Cfg) (s : State) (hr : s.bindRequest = true) (hi : s.bindStage = .idle) :
    buttonPhase c s = bindEnter c { s with bindRequest := false } := by
  rcases buttonPhase_cases c s with ⟨hno, -⟩ | ⟨-, -, e⟩ | ⟨-, hs, -⟩ | ⟨-, hs, -⟩
  · exact absurd hr (by simp [hno])
  · exact e
  · exact absurd hi hs
  · exact absurd hi hs

theorem buttonPhase_keepsConfig (c : Cfg) (s : State) : KeepsConfig s (buttonPhase c s) :=
  (keepsConfig_keptByRoutine c s).buttonPhase s (.refl s)

/-- Settles O15: the three cases of R95, and what the phase keeps in all of them. -/
theorem buttonPhaseEntersOrDrops : Obligations.ButtonPhaseEntersOrDrops := by
  intro s
  refine ⟨fun hr => ?_, fun hr hi => ?_, fun _ hs => ?_, _, exec_dispButton s, buttonPhase_noRequest _ s, fun hs => ?_, ?_⟩
  · rw [exec_dispButton, buttonPhase_idle _ _ hr]
  · rw [exec_dispButton, exec_bindEnter, buttonPhase_enters _ _ hr hi]
  · rw [exec_dispButton, buttonPhase_session_ignores s hs]
  · rw [buttonPhase_session_ignores s hs]
  · obtain ⟨hnv, haddr, hhops, hvariant, -⟩ := buttonPhase_keepsConfig Config.cfg s
    obtain ⟨hbuf, hsel, hstate, -, -, hpin⟩ := PulseUnit.mk.inj (buttonPhase_pulseUnit Config.cfg s)
    exact ⟨haddr, hhops, hvariant, hnv, hbuf, hsel, hstate, hpin⟩

/-! ### The phases in order -/

/-- Settles O49: each phase run alone is its function, and what the LED phase runs on is the branch after the bind phase. -/
theorem tickRunsPhasesInOrder : Obligations.TickRunsPhasesInOrder := by
  intro s b
  refine ⟨_, _, _, _, _, _, _, exec_dispTick b s, exec_dispButton _, exec_dispBind _,
    fun hi => ⟨exec_dispRx _, exec_dispFs _, ?_⟩, fun hs => if_neg hs, exec_dispLed _, exec_tick b s⟩
  rw [if_pos hi]
  exact exec_dispHop _

end Sys2Proof.Machine
end

section
/-! PROOFS. A session in which no radio interrupt comes runs to its timeout (spec/41_bind_handshake.md R103, R110, R112). -/

namespace Sys2Proof.Machine

/-! ### The dispatches before the last -/

/-- n dispatches on, a session that waits without a radio interrupt: its stage, its statuses and the configuration are those
of s, its two countdowns n ticks lower. -/
def WaitedFor (n : Nat) (s t : State) : Prop :=
  t.bindStage = s.bindStage ∧ t.radioFlag = false ∧ t.status = s.status ∧ t.bindSavedStatus = s.bindSavedStatus ∧
    t.bindTimer = s.bindTimer - n ∧ t.fsTimer = s.fsTimer - n ∧ t.everReceived = s.everReceived ∧
    t.nv = s.nv ∧ t.modelAddr = s.modelAddr ∧ t.hopSeq = s.hopSeq ∧ t.variant = s.variant

theorem WaitedFor.refl {s : State} (hr : s.radioFlag = false) : WaitedFor 0 s s :=
  ⟨rfl, hr, rfl, rfl, rfl, rfl, rfl, rfl, rfl, rfl, rfl⟩

/-- One dispatch waited for, then n more. -/
theorem WaitedFor.trans_one {n : Nat} {s t u : State} (h : WaitedFor 1 s t) (h' : WaitedFor n t u) :
    WaitedFor (n + 1) s u := by
  obtain ⟨hst, -, hstat, hsaved, hbind, hfs, hever, hnv, haddr, hhops, hvariant⟩ := h
  obtain ⟨hst', hr', hstat', hsaved', hbind', hfs', hever', hnv', haddr', hhops', hvariant'⟩ := h'
  exact ⟨hst'.trans hst, hr', hstat'.trans hstat, hsaved'.trans hsaved, by omega, by omega, hever'.trans hever,
    hnv'.trans hnv, haddr'.trans haddr, hhops'.trans hhops, hvariant'.trans hvariant⟩

/-- The state in which a silent session's bind phase runs. -/
theorem afterButton_waitedFor (b : Bool) {s : State} (hr : s.radioFlag = false) : WaitedFor 1 s (afterButton b s) :=
  ⟨rfl, hr, rfl, rfl, afterButton_bindTimer b s, afterButton_fsTimer b s, rfl, rfl, rfl, rfl, rfl⟩

/-- A dispatch of a silent session with time left (R103). -/
theorem dispatch_waits (b : Bool) {s : State} (hs : s.bindStage ≠ .idle) (hr : s.radioFlag = false)
    (ht : 1 < s.bindTimer) : WaitedFor 1 s (dispatch Config.cfg b s) := by
  have htime : (afterButton b s).bindTimer ≠ 0 := by rw [afterButton_bindTimer]; omega
  have e : bindPhase Config.cfg (afterButton b s) = afterButton b s := bindPhase_waits _ _ hs htime hr
  rw [dispatch_session b s hs (by rw [e]; exact hs), e, ledPhase_eq]
  exact afterButton_waitedFor b hr

theorem runAll_waits (bs : List Bool) (s : State) (hs : s.bindStage ≠ .idle) (hr : s.radioFlag = false)
    (ht : bs.length < s.bindTimer) : ∃ t, runAll (bs.map .tick) s = .next t ∧ WaitedFor bs.length s t := by
  induction bs generalizing s with
  | nil => exact ⟨s, rfl, .refl hr⟩
  | cons b bs ih =>
    rw [List.length_cons] at ht ⊢
    have hone : WaitedFor 1 s (dispatch Config.cfg b s) := dispatch_waits b hs hr (by omega)
    have ⟨hst, hr', _, _, hbind, _⟩ := hone
    obtain ⟨t, hrun, hrest⟩ := ih (dispatch Config.cfg b s) (by rwa [hst]) hr' (by omega)
    exact ⟨t, hrun, hone.trans_one hrest⟩

/-! ### The last dispatch -/

/-- The dispatch in which a silent session's time runs out: the failsafe phase is the only data phase that can act on the
re-armed receiver (R103, R110, R126). -/
theorem dispatch_timesOut (b : Bool) {s : State} (hs : s.bindStage ≠ .idle) (ht : s.bindTimer = 1) :
    dispatch Config.cfg b s =
      ledPhase Config.cfg (fsPhase Config.cfg (bindTimeout Config.cfg (afterButton b s))) := by
  have htime : (afterButton b s).bindTimer = 0 := by rw [afterButton_bindTimer, ht]
  have e := bindPhase_timeout Config.cfg (afterButton b s) hs htime
  have hclear : (bindTimeout Config.cfg (afterButton b s)).bindStage = .idle ∧
      (bindTimeout Config.cfg (afterButton b s)).radioFlag = false ∧
      (bindTimeout Config.cfg (afterButton b s)).hopFlag = false := by
    rw [bindTimeout_eq]; exact ⟨rfl, rfl, rfl⟩
  obtain ⟨hidle, hflag, hhop⟩ := hclear
  rw [dispatch_session_ends b s hs (by rw [e]; exact hidle), e, dataPhases_quiet _ _ hflag hhop]

theorem dispatch_timesOut_status (b : Bool) {s : State} (hs : s.bindStage ≠ .idle) (ht : s.bindTimer = 1) :
    (dispatch Config.cfg b s).status =
      if s.everReceived = true ∧ s.fsTimer ≤ 1 then .failsafe else s.bindSavedStatus := by
  rw [dispatch_timesOut b hs ht, ledPhase_status, fsPhase_status, bindTimeout_eq]
  simp only [afterButton_fsTimer, Nat.sub_eq_zero_iff_le]
  rfl

theorem dispatch_timesOut_stage (b : Bool) {s : State} (hs : s.bindStage ≠ .idle) (ht : s.bindTimer = 1) :
    (dispatch Config.cfg b s).bindStage = .idle := by
  rw [dispatch_timesOut b hs ht, ledPhase_eq]
  exact (fsPhase_stage _ _).trans (by rw [bindTimeout_eq])

theorem dispatch_timesOut_keepsConfig (b : Bool) {s : State} (hs : s.bindStage ≠ .idle) (ht : s.bindTimer = 1) :
    KeepsConfig s (dispatch Config.cfg b s) := by
  have hk := keepsConfig_keptByRoutine Config.cfg s
  rw [dispatch_timesOut b hs ht]
  exact hk.led _ (hk.fs _ (hk.timeout (afterButton b s) hs (.refl s)))

/-- Settles O28: all dispatches but the last wait, and in the last the time has run out. -/
theorem silentSessionTimesOut : Obligations.SilentSessionTimesOut := by
  intro s bs hs hr hne ht
  refine ⟨fun n hn => ?_, ?_⟩
  · have hlen : (bs.take n).length < s.bindTimer := by rw [List.length_take]; omega
    obtain ⟨t, hrun, hst, -, hstat, -⟩ := runAll_waits (bs.take n) s hs hr hlen
    exact ⟨t, hrun, hst, hstat⟩
  · obtain ⟨bs, b, rfl⟩ := (List.eq_nil_or_concat bs).resolve_left hne
    rw [List.concat_eq_append, List.length_append, List.length_singleton] at ht ⊢
    obtain ⟨t, hrun, hst, -, -, hsaved, hbind, hfs, hever, hnv, haddr, hhops, hvariant⟩ :=
      runAll_waits bs s hs hr (by omega)
    have hs' : t.bindStage ≠ .idle := by rwa [hst]
    have ht' : t.bindTimer = 1 := by omega
    obtain ⟨hnv', haddr', hhops', hvariant', -⟩ := dispatch_timesOut_keepsConfig b hs' ht'
    refine ⟨dispatch Config.cfg b t, ?_, dispatch_timesOut_stage b hs' ht', ?_, hnv'.trans hnv, haddr'.trans haddr,
      hhops'.trans hhops, hvariant'.trans hvariant⟩
    · rw [List.map_append, runAll_append, hrun]
      rfl
    · rw [dispatch_timesOut_status b hs' ht', hsaved, hever, hfs]
      simp only [Nat.sub_le_iff_le_add, Nat.add_comm]

end Sys2Proof.Machine
end

section
/-! PROOFS. Dispatches outside a session: hop expiries without a frame (spec/42_hop_scheduler.md R115, R116, R118), the
failsafe countdown (spec/44_failsafe.md R126, R129) and a hop request pending with a valid frame (spec/40_dispatch.md
R194). -/

namespace Sys2Proof.Machine

/-! ### One dispatch outside a session -/

/-- The failsafe phase writes only the PulseBuffer, its selector, the status and the trace (R126). -/
theorem fsPhase_eq (c : Cfg) (s : State) :
    fsPhase c s =
      { s with
        pbuf := (fsPhase c s).pbuf, psel := (fsPhase c s).psel, status := (fsPhase c s).status
        trace := (fsPhase c s).trace } := by
  rcases fsPhase_cases c s with ⟨-, e⟩ | ⟨-, -, e⟩ <;> rw [e]

/-- The hop phase writes only the hop scheduler's own fields, the radio's channel and queue, and the trace (R115, R116). -/
theorem hopPhase_eq (c : Cfg) (s : State) :
    hopPhase c s =
      { s with
        hopIndex := (hopPhase c s).hopIndex, missCount := (hopPhase c s).missCount, hopFlag := (hopPhase c s).hopFlag
        hopTimerRunning := (hopPhase c s).hopTimerRunning, radioChannel := (hopPhase c s).radioChannel
        rxq := (hopPhase c s).rxq, trace := (hopPhase c s).trace } := by
  rcases hopPhase_cases c s with ⟨-, e⟩ | ⟨-, -, e⟩ | ⟨-, -, e⟩ <;> rw [e]

/-- With no radio interrupt the receiver phase is idle (R119). -/
theorem dispatch_noFrame (c : Cfg) {s : State} (hi : s.bindStage = .idle) (hr : s.radioFlag = false) :
    dispatch c false s = ledPhase c (hopPhase c (fsPhase c (tickPhase false s))) := by
  have hflag : (tickPhase false s).radioFlag = false := hr
  rw [dispatch_data c s false hi (tickPhase_released s), dataPhases, rxPhase_idle c _ hflag]

/-! ### Hop expiries without a frame -/

/-- k misses on from a state without any: outside a session, no frame, the hop timer running, and, from the first miss on, the
radio on the channel of the index k places further (R115, R118). -/
def MissedFor (k : Nat) (s t : State) : Prop :=
  t.bindStage = .idle ∧ t.radioFlag = false ∧ t.hopTimerRunning = true ∧ t.hopSeq = s.hopSeq ∧ t.missCount.toNat = k ∧
    t.hopIndex.toNat = (s.hopIndex.toNat + k) % 20 ∧ (0 < k → t.radioChannel = hopChannel s.hopSeq t.hopIndex)

/-- A hop expiry and a dispatch that finds no frame: the hop phase runs with the flag set, after the failsafe phase (R94,
R114). -/
theorem runAll_hexp_tick {s : State} (hi : s.bindStage = .idle) (hr : s.radioFlag = false)
    (hrun : s.hopTimerRunning = true) :
    runAll [.hexp, .tick false] s =
      .next (ledPhase Config.cfg (hopPhase Config.cfg (fsPhase Config.cfg (tickPhase false (hopExpire s))))) := by
  rw [runAll, exec_hexp_running hrun, ← dispatch_noFrame Config.cfg (s := hopExpire s) hi hr]
  rfl

theorem runAll_miss {k : Nat} {s t : State} (h : MissedFor k s t) (hk : k < 15) :
    ∃ u, runAll [.hexp, .tick false] t = .next u ∧ MissedFor (k + 1) s u := by
  obtain ⟨hi, hr, hrun, hseq, hm, hidx, -⟩ := h
  refine ⟨_, runAll_hexp_tick hi hr hrun, ?_⟩
  have hmiss : (t.missCount + 1#5).toNat = k + 1 := by rw [missCount_succ_toNat (by omega), hm]
  have hnext : (nextHopIndex t.hopIndex).toNat = (s.hopIndex.toNat + (k + 1)) % 20 := by
    rw [nextHopIndex_toNat, hidx]; omega
  have hflag : (fsPhase Config.cfg (tickPhase false (hopExpire t))).hopFlag = true := by rw [fsPhase_eq]; rfl
  have hcount : (fsPhase Config.cfg (tickPhase false (hopExpire t))).missCount.toNat < 15 := by
    rw [fsPhase_eq]; exact hm.trans_lt hk
  rw [hopPhase_advance _ _ hflag hcount, fsPhase_eq, ledPhase_eq]
  exact ⟨hi, hr, hrun, hseq, hmiss, hnext, fun _ => congrArg (hopChannel · _) hseq⟩

theorem runAll_misses (k : Nat) (s : State) (hk : k ≤ 15) (h : MissedFor 0 s s) :
    ∃ t, runAll (List.replicate k [Instr.hexp, .tick false]).flatten s = .next t ∧ MissedFor k s t := by
  induction k with
  | zero => exact ⟨s, rfl, h⟩
  | succ k ih =>
    obtain ⟨t, hrun, hmissed⟩ := ih (by omega)
    obtain ⟨u, hstep, hmissed'⟩ := runAll_miss hmissed (by omega)
    refine ⟨u, ?_, hmissed'⟩
    rw [List.replicate_succ', List.flatten_concat, runAll_append, hrun]
    exact hstep

/-- The 16th miss in a row (R116). -/
theorem runAll_resync {s t : State} (h : MissedFor 15 s t) :
    ∃ u, runAll [.hexp, .tick false] t = .next u ∧ u.missCount = 0#5 ∧ u.hopIndex = 0#5 ∧ u.hopTimerRunning = false ∧
      u.rxq = [] ∧ u.radioChannel = s.hopSeq[0] := by
  obtain ⟨hi, hr, hrun, hseq, hm, -⟩ := h
  refine ⟨_, runAll_hexp_tick hi hr hrun, ?_⟩
  have hflag : (fsPhase Config.cfg (tickPhase false (hopExpire t))).hopFlag = true := by rw [fsPhase_eq]; rfl
  have hcount : (fsPhase Config.cfg (tickPhase false (hopExpire t))).missCount.toNat = 15 := by rw [fsPhase_eq]; exact hm
  rw [hopPhase_resync _ _ hflag hcount, fsPhase_eq, ledPhase_eq]
  exact ⟨rfl, rfl, rfl, rfl, congrArg (·[0]) hseq⟩

/-- Settles O32: up to 15 misses by induction over them, then the resynchronisation. -/
theorem sixteenthConsecutiveMissResyncs : Obligations.SixteenthConsecutiveMissResyncs := by
  intro s k hi hrun hr hm hidx
  have hstart : MissedFor 0 s s :=
    ⟨hi, hr, hrun, rfl, by rw [hm]; rfl, (Nat.mod_eq_of_lt hidx).symm, fun h => absurd h (Nat.lt_irrefl 0)⟩
  refine ⟨fun hk => ?_, fun hk => ?_⟩
  · obtain ⟨t, hrun', -, -, htimer, -, hcount, hindex, hchan⟩ := runAll_misses k s hk hstart
    refine ⟨t, hrun', hcount, hindex, htimer, fun hpos => ?_⟩
    have hlt : (s.hopIndex.toNat + k) % 20 < 20 := Nat.mod_lt _ (by decide)
    refine ⟨hlt, ?_⟩
    rw [hchan hpos, hopChannel_of_lt _ (by rwa [hindex])]
    simp only [hindex]
  · obtain ⟨t, hrun', hmissed⟩ := runAll_misses 15 s le_rfl hstart
    obtain ⟨u, hstep, hu⟩ := runAll_resync hmissed
    refine ⟨u, ?_, hu⟩
    rw [hk, List.replicate_succ', List.flatten_concat, runAll_append, hrun']
    exact hstep

/-! ### The failsafe countdown -/

theorem tickPhase_fsTimer (b : Bool) (s : State) : (tickPhase b s).fsTimer = s.fsTimer - 1 := satdec_eq s.fsTimer

/-- n dispatches on, outside a session and without a frame, before the failsafe countdown has run out: the status, the
PulseBuffer and what the fallback is made of are those of s (R126, R129). -/
def CountedFor (n : Nat) (s t : State) : Prop :=
  t.bindStage = .idle ∧ t.radioFlag = false ∧ t.everReceived = true ∧ t.fsTimer = s.fsTimer - n ∧ t.status = s.status ∧
    t.pbuf = s.pbuf ∧ t.psel = s.psel ∧ t.variant = s.variant ∧ t.fsEnabled = s.fsEnabled ∧ t.fsValues = s.fsValues

theorem dispatch_counts {n : Nat} {s t : State} (h : CountedFor n s t) (hn : n + 1 < s.fsTimer) :
    CountedFor (n + 1) s (dispatch Config.cfg false t) := by
  obtain ⟨hi, hr, hever, hfs, hkept⟩ := h
  have htime : (tickPhase false t).fsTimer = s.fsTimer - (n + 1) := by rw [tickPhase_fsTimer]; omega
  rw [dispatch_noFrame _ hi hr, fsPhase_running _ _ (by omega), hopPhase_eq, ledPhase_eq]
  exact ⟨hi, hr, hever, htime, hkept⟩

theorem runAll_counts (n : Nat) (s : State) (hn : n < s.fsTimer) (h : CountedFor 0 s s) :
    ∃ t, runAll (List.replicate n (.tick false)) s = .next t ∧ CountedFor n s t := by
  induction n with
  | zero => exact ⟨s, rfl, h⟩
  | succ n ih =>
    obtain ⟨t, hrun, hcounted⟩ := ih (by omega)
    refine ⟨dispatch Config.cfg false t, ?_, dispatch_counts hcounted hn⟩
    rw [List.replicate_succ', runAll_append, hrun]
    rfl

/-- The dispatch in which the countdown runs out is a publish of the fallback (R126). -/
theorem dispatch_fallback {s : State} (hi : s.bindStage = .idle) (hr : s.radioFlag = false)
    (hever : s.everReceived = true) (ht : s.fsTimer = 1) :
    (dispatch Config.cfg false s).status = .failsafe ∧
      (dispatch Config.cfg false s).pbuf = (writePulseBuffer (fallback Config.cfg s) s).pbuf ∧
      (dispatch Config.cfg false s).psel = otherSlot s.psel := by
  have htime : (tickPhase false s).fsTimer = 0 := by rw [tickPhase_fsTimer, ht]
  rw [dispatch_noFrame _ hi hr, hopPhase_eq, ledPhase_eq]
  rcases fsPhase_cases Config.cfg (tickPhase false s) with ⟨hno, -⟩ | ⟨-, -, e⟩
  · exact absurd htime (hno.resolve_left (hever.trans_ne nofun))
  · rw [e]; exact ⟨rfl, rfl, rfl⟩

/-- Entry k of the fallback (R126). -/
theorem fallback_get (c : Cfg) (s : State) (k : Fin 4) :
    (fallback c s)[k] = if s.fsEnabled then s.fsValues[k] else c.center s.variant := by
  unfold fallback
  split <;> simp

/-- Settles O40: the dispatches before the last only count, and the last publishes the fallback. -/
theorem failsafeAppliedAtTimeout : Obligations.FailsafeAppliedAtTimeout := by
  intro s n hi hever hr _ ht
  have hstart : CountedFor 0 s s := ⟨hi, hr, hever, rfl, rfl, rfl, rfl, rfl, rfl, rfl⟩
  refine ⟨fun k hk => ?_, ?_⟩
  · obtain ⟨t, hrun, -, -, -, -, hstat, hbuf, hsel, -⟩ := runAll_counts k s (by omega) hstart
    exact ⟨t, hrun, hstat, hbuf, hsel⟩
  · obtain ⟨t, hrun, hi', hr', hever', hfs, -, -, hsel, hvariant, hen, hvals⟩ := runAll_counts n s (by omega) hstart
    obtain ⟨hstat', hbuf', hsel'⟩ := dispatch_fallback hi' hr' hever' (by omega)
    refine ⟨dispatch Config.cfg false t, ?_, hstat', hsel'.trans (congrArg otherSlot hsel), fun k hk => ?_⟩
    · rw [List.replicate_succ', runAll_append, hrun]
      rfl
    · have hwritten := writePulseBuffer_written t (fallback Config.cfg t) k
      rw [hvariant, if_pos hk, fallback_get, hen, hvals, hvariant] at hwritten
      simp only [hbuf', hsel']
      exact hwritten

/-! ### A hop request pending with a valid frame -/

/-- From s to t the hop timer was restarted by a valid frame: no misses, the pending request, the index and the table kept,
the request because `RESTART_CLEARS_HOP_FLAG` is false (R117, D20). -/
def HopRestarted (s t : State) : Prop :=
  t.missCount = 0#5 ∧ t.hopTimerRunning = true ∧ t.hopFlag = s.hopFlag ∧ t.hopIndex = s.hopIndex ∧ t.hopSeq = s.hopSeq

theorem handleFrame_stick (c : Cfg) {f : Frame} {s : State} (hi : s.bindStage = .idle)
    (h7 : f[7] = c.stickId s.variant) : handleFrame c f s = stickFrame c f s := by
  rcases handleFrame_data c f s hi with ⟨-, e⟩ | ⟨hne, -⟩
  · exact e
  · exact absurd h7 hne

/-- A valid frame of either kind restarts the hop timer (R120 to R122). -/
theorem handleFrame_valid_restarts {f : Frame} {s : State} (hi : s.bindStage = .idle)
    (h7 : f[7] = Config.cfg.stickId s.variant ∨ f[7] = Config.cfg.failsafeId s.variant) :
    HopRestarted s (handleFrame Config.cfg f s) := by
  rcases h7 with h7 | h7
  · rw [handleFrame_stick _ hi h7, stickFrame_eq]; exact ⟨rfl, rfl, rfl, rfl, rfl⟩
  · rcases handleFrame_failsafe _ f s hi h7 with e | e <;> rw [e]
    · rw [failsafeEnableFrame_eq]; exact ⟨rfl, rfl, rfl, rfl, rfl⟩
    · rw [failsafeDisableFrame_eq]; exact ⟨rfl, rfl, rfl, rfl, rfl⟩

/-- The hop phase after a restart with the request pending: one miss, and the next hop (R115, R194). -/
theorem hopPhase_restarted (c : Cfg) {s t : State} (h : HopRestarted s t) (hf : s.hopFlag = true) :
    (hopPhase c t).missCount = 1#5 ∧ (hopPhase c t).hopIndex = nextHopIndex s.hopIndex ∧
      (hopPhase c t).radioChannel = hopChannel s.hopSeq (nextHopIndex s.hopIndex) ∧
      (hopPhase c t).hopTimerRunning = true ∧ (hopPhase c t).hopFlag = false := by
  obtain ⟨hm, hrun, hflag, hidx, hseq⟩ := h
  rw [hopPhase_advance c t (hflag.trans hf) (by rw [hm]; decide), hm, hidx, hseq]
  exact ⟨rfl, rfl, rfl, hrun, rfl⟩

theorem rxPhase_valid_restarts {s : State} {q : List Frame} {f : Frame} (hi : s.bindStage = .idle)
    (hr : s.radioFlag = true) (hq : s.rxq = q ++ [f])
    (h7 : f[7] = Config.cfg.stickId s.variant ∨ f[7] = Config.cfg.failsafeId s.variant) :
    HopRestarted s (rxPhase Config.cfg s) := by
  rw [rxPhase_last _ s hr hq]
  exact handleFrame_valid_restarts (s := { s with radioFlag := false, rxq := [], trace := _ }) hi h7

/-- After a stick frame the failsafe countdown is reloaded, so the status stays Receiving to the dispatch's end (R121). -/
theorem dataPhases_stick_status (c : Cfg) {s : State} {q : List Frame} {f : Frame} (hi : s.bindStage = .idle)
    (hr : s.radioFlag = true) (hq : s.rxq = q ++ [f]) (h7 : f[7] = c.stickId s.variant) :
    (dataPhases c s).status = .receiving := by
  rw [dataPhases, hopPhase_eq, rxPhase_last c s hr hq,
    handleFrame_stick c (s := { s with radioFlag := false, rxq := [], trace := _ }) hi h7,
    fsPhase_running c _ (stickFrame_fsTimer_ne_zero c f _), stickFrame_eq]

/-- The press edge needs two pressed samples in a row from a released debounced state (R145). -/
theorem tickPhase_noRequest {b : Bool} {s : State} (h : ¬(b = true ∧ s.btnPrev = true ∧ s.btnDeb = false)) :
    (tickPhase b s).bindRequest = false := by
  rw [tickPhase_eq]
  rcases hd : s.btnDeb
  · have hdeb : debounced b s.btnPrev false = false := by
      unfold debounced
      split
      · next hsame =>
        cases b
        · rfl
        · exact absurd ⟨rfl, hsame.symm, hd⟩ h
      · rfl
    exact hdeb
  · rfl

/-- Settles O50: the receiver phase restarts the hop timer and keeps the request, the failsafe phase touches neither, and the
hop phase counts the miss. -/
theorem pendingHopCountedAfterValidFrame : Obligations.PendingHopCountedAfterValidFrame := by
  intro s q f b hi hr hf hq h7 hb
  have hrestart : HopRestarted s (fsPhase Config.cfg (rxPhase Config.cfg (tickPhase b s))) := by
    rw [fsPhase_eq]
    exact rxPhase_valid_restarts (s := tickPhase b s) hi hr hq h7
  obtain ⟨hm, hidx, hchan, hrun, hflag⟩ := hopPhase_restarted Config.cfg hrestart hf
  have hlt : (s.hopIndex.toNat + 1) % 20 < 20 := Nat.mod_lt _ (by decide)
  refine ⟨_, exec_tick b s, ?_⟩
  rw [dispatch_data _ s b hi (tickPhase_noRequest hb), ledPhase_eq]
  exact ⟨hm, (congrArg BitVec.toNat hidx).trans (nextHopIndex_toNat _),
    ⟨hlt, hchan.trans (hopChannel_nextHopIndex _ _ hlt)⟩,
    fun hstick => dataPhases_stick_status _ (s := tickPhase b s) hi hr hq hstick, hrun, hflag⟩

end Sys2Proof.Machine
end

section
/-! PROOFS. The bind handshake's own operations (spec/41_bind_handshake.md R100 to R110), each as the one record update it is,
the boot that ends in the same re-arming (spec/70_reset_and_hazards.md R186), and the drain of a queue of rejected frames. -/

namespace Sys2Proof.Machine

/-! ### The operations as answers -/

theorem exec_armBeacon (s : State) : exec .armBeacon s = .next (armBeacon Config.cfg s) := rfl

theorem exec_bindRestart (s : State) : exec .bindRestart s = .next (bindRestart Config.cfg s) := rfl

theorem exec_bindCommit (s : State) : exec .bindCommit s = .next (bindCommit Config.cfg s) := rfl

theorem exec_bindParse (r : BindRecord) (s : State) : exec (.bindParse r) s = .next (bindParse r s) := rfl

theorem exec_rearm (s : State) : exec .rearm s = .next (rearm Config.cfg s) := rfl

theorem exec_bindTimeout (s : State) : exec .bindTimeout s = .next (bindTimeout Config.cfg s) := rfl

theorem exec_boot (s : State) : exec .boot s = .next (bootBlock Config.cfg s) := rfl

/-! ### The fields of a record (R79) -/

theorem recordAddress_get (r : BindRecord) (i : Fin 5) : (recordAddress r)[i] = r[i.val] := by simp [recordAddress]

theorem recordHops_get (r : BindRecord) (i : Fin 20) : (recordHops r)[i] = r[5 + i.val] := by simp [recordHops]

/-! ### Entry, restart, re-arming and timeout -/

/-- Settles O16: entry is the status change, the hop timer's stop and the beacon's six commands (R100, R101). -/
theorem bindEnterStartsSession : Obligations.BindEnterStartsSession := by
  intro s
  rw [exec_bindEnter, bindEnter_eq]

/-- Settles O17: a restart is the beacon armed again from AWAIT_ADDR with the timeout reloaded (R102). -/
theorem beaconArmedByRestart : Obligations.BeaconArmedByRestart := by
  intro s
  constructor
  · rw [exec_armBeacon, armBeacon_eq]
  · rw [exec_bindRestart, bindRestart, armBeacon_eq]

/-- Settles O21: the commands of R109 run in their order are one update of the listed fields. -/
theorem rearmRestartsReceiver : Obligations.RearmRestartsReceiver := by
  intro s
  rw [exec_rearm, rearm_eq]

/-- Settles O23: the timeout re-arms on the live configuration, which it has not written (R109, R110). -/
theorem bindTimeoutKeepsConfiguration : Obligations.BindTimeoutKeepsConfiguration := by
  intro s
  rw [exec_bindTimeout, bindTimeout_eq]

/-! ### The live configuration of a record -/

/-- Settles O20: the address and the hop table are the record's two windows. -/
theorem bindParseReadsRecord : Obligations.BindParseReadsRecord := by
  intro s r
  exact ⟨recordAddress r, recordHops r, exec_bindParse r s, recordAddress_get r, recordHops_get r⟩

/-- Settles O22: the commit saves the record in hand and re-arms on its parse (R107 to R109). -/
theorem bindCommitPersistsAndParses : Obligations.BindCommitPersistsAndParses := by
  intro s
  refine ⟨recordAddress s.bindRec, recordHops s.bindRec, ?_, recordAddress_get s.bindRec, recordHops_get s.bindRec⟩
  rw [exec_bindCommit, bindCommit_eq]
  rfl

/-! ### The boot -/

theorem bootConfig_noRecord {s : State} (h : s.nv = none) :
    bootConfig s =
      { s with
        modelAddr := Vector.replicate 5 0#8, hopSeq := Vector.replicate 20 0#8, variant := .ch3
        trace := s.trace ++ [.cond .noRecord .nothing] } := by
  simp only [bootConfig, nvLoad, h]
  rfl

theorem bootConfig_record {s : State} {r : BindRecord} (h : s.nv = some r) : bootConfig s = bindParse r s := by
  simp only [bootConfig, nvLoad, h]

/-- What follows the boot's load of a configuration (R186): the failsafe defaults of its variant, the radio configured, and
the receiver armed on it. -/
theorem bootBlock_of_config (c : Cfg) {s : State} {a : Address} {h : HopTable} {v : Variant} {es : List TraceEntry}
    (hload : bootConfig s = { s with modelAddr := a, hopSeq := h, variant := v, trace := s.trace ++ es }) :
    bootBlock c s =
      { s with
        modelAddr := a, hopSeq := h, variant := v
        fsEnabled := false, fsValues := Vector.replicate 4 (c.center v), radioCfg := radioInitCfg c
        radioAddr := a, radioChannel := h[0], rxq := [], radioFlag := false, radioCe := true
        hopIndex := 0#5, missCount := 0#5, hopTimerRunning := false, hopFlag := false
        trace := s.trace ++ es ++
          [.cmd .radioInit, .cmd (.ce false), .cmd (.setAddr a), .cmd .hopTimerStop, .cmd (.setChannel h[0]), .cmd .flushRx,
           .cmd .clearIrq, .cmd (.ce true)] } := by
  simp [bootBlock, hload, rearm_eq, emit, applyCommand, record]

/-- Settles O53: the boot is the load of R186, from the storage or without a record, and what follows every load. -/
theorem bootLoadsStoredConfiguration : Obligations.BootLoadsStoredConfiguration := by
  intro s
  rcases Option.eq_none_or_eq_some s.nv with hnv | ⟨r, hnv⟩
  · exact ⟨_, _, _, _, (exec_boot s).trans (congrArg _ (bootBlock_of_config _ (bootConfig_noRecord hnv))),
      fun _ => ⟨rfl, rfl, rfl, rfl⟩, fun r hr => by cases hnv.symm.trans hr⟩
  · have hload : bootConfig s =
        { s with
          modelAddr := recordAddress r, hopSeq := recordHops r, variant := recordVariant r, trace := s.trace ++ [] } := by
      rw [bootConfig_record hnv, bindParse, List.append_nil]
    refine ⟨_, _, _, _, (exec_boot s).trans (congrArg _ (bootBlock_of_config _ hload)),
      fun hr => (by cases hnv.symm.trans hr), fun r' hr => ?_⟩
    obtain rfl : r = r' := Option.some.inj (hnv.symm.trans hr)
    exact ⟨recordAddress_get r, recordHops_get r, rfl, rfl⟩

/-! ### A queue of rejected frames -/

theorem handleFrame_rejected (c : Cfg) {f : Frame} {s : State} (hs : s.bindStage ≠ .idle)
    (hf : stageAccepts (frameMode s) f = false) : handleFrame c f s = bindRejectFrame f s := by
  rw [handleFrame, decodeFrame_rejected c hs hf]
  rfl

/-- Each rejected frame leaves the decoding mode as it was, so the frames behind it are rejected too (R106, R112). -/
theorem bindDrain_rejected (c : Cfg) {q : List Frame} {s : State} (hs : s.bindStage ≠ .idle) (hq : s.rxq = q)
    (hrej : ∀ f ∈ q, stageAccepts (frameMode s) f = false) :
    bindDrain c q.length s =
      { s with
        rxq := []
        trace := s.trace ++ q.map (fun f => .cond .bindMalformed (.stageFrame s.bindStage f)) ++ [.cmd .clearIrq] } := by
  induction q generalizing s with
  | nil =>
    rw [bindDrain_nil c s _ hq, emit_clearIrq_eq, List.map_nil, List.append_nil]
    simp only [← hq]
  | cons f q ih =>
    obtain ⟨hf, hrest⟩ := List.forall_mem_cons.mp hrej
    have hreject : handleFrame c f { s with rxq := q } = bindRejectFrame f { s with rxq := q } :=
      handleFrame_rejected c (s := { s with rxq := q }) hs hf
    have hgoesOn : (bindRejectFrame f { s with rxq := q }).bindStage ≠ .idle := hs
    rw [List.length_cons, bindDrain_cons c f s q.length q hq, hreject, if_neg hgoesOn, ih hgoesOn rfl hrest]
    simp [bindRejectFrame, raise, record]

/-- Settles O26: with the flag set and time left the phase is its drain, and every frame it meets is rejected (R103, R112). -/
theorem rejectedFramesNeverAdvanceStage : Obligations.RejectedFramesNeverAdvanceStage := by
  intro s hs ht hr hrej
  rw [exec_dispBind, bindPhase_drains _ _ hs ht hr,
    bindDrain_rejected Config.cfg (s := { s with radioFlag := false }) hs rfl hrej]

end Sys2Proof.Machine
end

section
/-! PROOFS. The Hop Scheduler's two responses run alone (spec/42_hop_scheduler.md R116, R117): the full resynchronisation and
the restart by a valid frame. -/

namespace Sys2Proof.Machine

theorem exec_hopResync (s : State) : exec .hopResync s = .next (hopResync Config.cfg s) := rfl

theorem exec_hopValid (s : State) : exec .hopValid s = .next (hopValid Config.cfg s) := rfl

/-- Where a restart does not clear the pending hop request (`RESTART_CLEARS_HOP_FLAG` = false, D20), a valid frame writes the
miss counter and the hop timer alone (R117). -/
theorem hopValid_keeps_request {c : Cfg} (hc : c.restartClearsHopFlag = false) (s : State) :
    hopValid c s =
      { s with
        missCount := 0#5, hopTimerRunning := true, hopTimerInterval := .first
        trace := s.trace ++ [.cmd .hopTimerStop, .cmd (.hopTimerStart .first)] } := by
  have hflag : (if c.restartClearsHopFlag then false else s.hopFlag) = s.hopFlag :=
    if_neg (Bool.eq_false_iff.mp hc)
  rw [hopValid_eq, hflag]

/-- Settles O31: each operation is one record update, and the decided configuration keeps the pending hop request (D20). -/
theorem resyncStopsAndValidFrameRestartsTimer : Obligations.ResyncStopsAndValidFrameRestartsTimer := by
  intro s
  constructor
  · rw [exec_hopResync, hopResync_eq]
  · have hdecided : Config.cfg.restartClearsHopFlag = false := rfl
    rw [exec_hopValid, hopValid_keeps_request hdecided]

end Sys2Proof.Machine
end

section
/-! PROOFS. A publish as an operation of its own (spec/43_packet_receiver.md R124), and the failsafe phase run alone, whose
effect is one publish (spec/44_failsafe.md R126, R127). -/

namespace Sys2Proof.Machine

theorem exec_publish (vals : ChannelSet) (s : State) : exec (.publish vals) s = .next (writePulseBuffer vals s) := rfl

/-- Settles O34: the one write of the PulseBuffer keeps the slot that was active and overlays the other one. -/
theorem publishWritesInactiveSlot : Obligations.PublishWritesInactiveSlot := by
  intro s vals
  refine ⟨(writePulseBuffer vals s).pbuf, ?_, writePulseBuffer_keeps_active s vals, writePulseBuffer_written s vals⟩
  rw [exec_publish, writePulseBuffer_eq, otherSlot]

/-- The failsafe phase does nothing before stick data or with time left (R126). -/
theorem fsPhase_waits (c : Cfg) {s : State} (h : s.everReceived = false ∨ s.fsTimer ≠ 0) : fsPhase c s = s := by
  rcases fsPhase_cases c s with ⟨-, e⟩ | ⟨hever, hout, -⟩
  · exact e
  · exact absurd hout (h.resolve_left (hever.trans_ne nofun))

/-- Once the countdown is out the failsafe phase publishes the fallback, in every dispatch anew (R126, R127). -/
theorem fsPhase_fallback (c : Cfg) {s : State} (hever : s.everReceived = true) (hout : s.fsTimer = 0) :
    fsPhase c s =
      { s with
        pbuf := (writePulseBuffer (fallback c s) s).pbuf, psel := otherSlot s.psel, status := .failsafe
        trace := s.trace ++ (if s.status = .failsafe then [] else [.cond .failsafeEnter .nothing]) } := by
  rcases fsPhase_cases c s with ⟨hwaits, -⟩ | ⟨-, -, e⟩
  · exact absurd hout (hwaits.resolve_left (hever.trans_ne nofun))
  · exact e

/-- Settles O39: the phase waits, or it is one publish of the fallback with the status change. -/
theorem failsafePhasePublishesFallback : Obligations.FailsafePhasePublishesFallback := by
  intro s
  refine ⟨fun hwaits => ?_, fun hever hout => ⟨(writePulseBuffer (fallback Config.cfg s) s).pbuf, ?_,
    writePulseBuffer_keeps_active s _, fun k => ?_⟩⟩
  · rw [exec_dispFs, fsPhase_waits _ hwaits]
  · rw [exec_dispFs, fsPhase_fallback _ hever hout, otherSlot]
  · rw [writePulseBuffer_written, fallback_get]

end Sys2Proof.Machine
end

section
/-! PROOFS. One train of the pulse generator, from OFF to OFF (spec/45_pulse_generator.md R131 to R138). -/

namespace Sys2Proof.Machine

/-! ### The generator's two events -/

theorem exec_tstart (s : State) : exec .tstart s = .next (trainStart Config.cfg s) := rfl

/-- From OFF a train request enters channel 0 (R132). -/
theorem trainStart_enters (c : Cfg) {s : State} (h : s.pstate = .off) : trainStart c s = pulseEnter c 0 s := if_pos h

theorem exec_pexp_running {s : State} {k : Fin 4} (hrun : s.ptimerRunning = true) (hch : s.pstate = .ch k) :
    exec .pexp s = .next (pulseNext Config.cfg k s) := by
  have harm : exec .pexp s = execPexp s := rfl
  rw [harm, execPexp, hrun, hch]

/-- An expiry before the last channel enters the next one (R134). -/
theorem pulseNext_enters (c : Cfg) {k k' : Fin 4} {s : State} (hk : k'.val = k.val + 1)
    (hN : k'.val < channelCount s.variant) : pulseNext c k s = pulseEnter c k' s := by
  obtain ⟨_, hlt⟩ := k'
  subst hk
  exact dif_pos ⟨hN, hlt⟩

/-- An expiry at the last channel ends the train (R134). -/
theorem pulseNext_ends (c : Cfg) {k : Fin 4} {s : State} (hN : channelCount s.variant ≤ k.val + 1) :
    pulseNext c k s = pulseOff c k s :=
  dif_neg fun h => absurd h.1 (Nat.not_lt.mpr hN)

/-! ### The loads of a train -/

/-- What entering channel k puts in the trace when its width is `vals[k]` (R133, R188). -/
def channelLoad (vals : ChannelSet) (k : Fin 4) : List TraceEntry :=
  [.cmd .ptimerStop, .cmd (.ptimerLoad vals[k]), .cmd .ptimerStart]

/-- What the first n channels of a train put in the trace, in channel order (R138). -/
def trainLoads (vals : ChannelSet) (n : Nat) : List TraceEntry :=
  ((List.finRange 4).filter (fun k => k.val < n)).flatMap (channelLoad vals)

theorem channels_below_succ : ∀ k : Fin 4, (List.finRange 4).filter (fun j => j.val < k.val + 1) =
    (List.finRange 4).filter (fun j => j.val < k.val) ++ [k] := by decide

theorem trainLoads_succ (vals : ChannelSet) (k : Fin 4) :
    trainLoads vals (k.val + 1) = trainLoads vals k.val ++ channelLoad vals k := by
  rw [trainLoads, channels_below_succ, List.flatMap_append, List.flatMap_singleton, trainLoads]

/-! ### A train of one published channel set -/

/-- The active slot holds the published value of every channel of the variant v (R124). -/
structure ActiveHolds (v : Variant) (vals : ChannelSet) (s : State) : Prop where
  variant : s.variant = v
  entry : ∀ k : Fin 4, k.val < channelCount v → s.pbuf[s.psel][k] = vals[k]

theorem writePulseBuffer_activeHolds (vals : ChannelSet) (s : State) :
    ActiveHolds s.variant vals (writePulseBuffer vals s) :=
  ⟨rfl, fun k hk => (writePulseBuffer_written s vals k).trans (if_pos hk)⟩

/-- A train at channel k: the trace, which was `tr` before the train, has gained the loads of the channels up to k. -/
structure TrainAt (v : Variant) (vals : ChannelSet) (tr : List TraceEntry) (k : Fin 4) (t : State) : Prop where
  holds : ActiveHolds v vals t
  pstate : t.pstate = .ch k
  running : t.ptimerRunning = true
  trace : t.trace = tr ++ trainLoads vals (k.val + 1)

/-- Entering channel k adds its load to those of the channels before it (R133). -/
theorem pulseEnter_trainAt (c : Cfg) {v : Variant} {vals : ChannelSet} {tr : List TraceEntry} {k : Fin 4} {s : State}
    (hold : ActiveHolds v vals s) (hk : k.val < channelCount v) (htr : s.trace = tr ++ trainLoads vals k.val) :
    TrainAt v vals tr k (pulseEnter c k s) := by
  rw [pulseEnter_eq]
  refine ⟨⟨hold.variant, hold.entry⟩, rfl, rfl, ?_⟩
  rw [trainLoads_succ, ← List.append_assoc, ← htr, channelLoad, ← hold.entry k hk]

/-- From channel 0, k expiries bring the train to channel k, by induction on k (R134). -/
theorem runAll_pexp_trainAt {v : Variant} {vals : ChannelSet} {tr : List TraceEntry} {s : State}
    (h : TrainAt v vals tr 0 s) (k : Fin 4) (hk : k.val < channelCount v) :
    ∃ t, runAll (List.replicate k.val .pexp) s = .next t ∧ TrainAt v vals tr k t := by
  induction k using Fin.induction with
  | zero => exact ⟨s, rfl, h⟩
  | succ i ih =>
    obtain ⟨t, hreach, hold, hch, hrun, htr⟩ := ih (Nat.lt_of_succ_lt hk)
    have hnext : exec .pexp t = .next (pulseEnter Config.cfg i.succ t) := by
      rw [exec_pexp_running hrun hch, pulseNext_enters _ rfl (hold.variant ▸ hk)]
    refine ⟨_, ?_, pulseEnter_trainAt Config.cfg hold hk htr⟩
    rw [Fin.val_succ, List.replicate_succ', runAll_append, ← Fin.val_castSucc, hreach]
    simp only [runAll, hnext]

/-- From channel 0, as many expiries as the variant has channels end the train (R134, R135). -/
theorem runAll_pexp_ends {v : Variant} {vals : ChannelSet} {tr : List TraceEntry} {s : State}
    (h : TrainAt v vals tr 0 s) :
    ∃ t, runAll (List.replicate (channelCount v) .pexp) s = .next t ∧
      t.trace = tr ++ trainLoads vals (channelCount v) ++ [.cmd .ptimerStop] ∧
      t.pstate = .off ∧ t.ptimerRunning = false := by
  obtain ⟨last, hlast⟩ : ∃ last : Fin 4, channelCount v = last.val + 1 := by
    cases v
    · exact ⟨2, rfl⟩
    · exact ⟨3, rfl⟩
  obtain ⟨t, hreach, hold, hch, hrun, htr⟩ := runAll_pexp_trainAt h last (hlast ▸ Nat.lt_succ_self _)
  have hends : exec .pexp t = .next (pulseOff Config.cfg last t) := by
    rw [exec_pexp_running hrun hch, pulseNext_ends _ (hold.variant ▸ hlast.le)]
  refine ⟨pulseOff Config.cfg last t, ?_, ?_⟩
  · rw [hlast, List.replicate_succ', runAll_append, hreach]
    simp only [runAll, hends]
  · rw [pulseOff_eq, hlast, ← htr]
    exact ⟨rfl, rfl, rfl⟩

/-- Settles O44: the publish fills the slot that TSTART and each expiry then read. -/
theorem trainEmitsPublishedWidths : Obligations.TrainEmitsPublishedWidths := by
  intro s vals hoff
  have hstart : trainStart Config.cfg (writePulseBuffer vals s) = pulseEnter Config.cfg 0 (writePulseBuffer vals s) :=
    trainStart_enters _ hoff
  have hfirst : TrainAt s.variant vals s.trace 0 (pulseEnter Config.cfg 0 (writePulseBuffer vals s)) :=
    pulseEnter_trainAt _ (writePulseBuffer_activeHolds vals s) (lt_channelCount_of_lt_three (by decide) _)
      (List.append_nil _).symm
  obtain ⟨t, hrun, hend⟩ := runAll_pexp_ends hfirst
  refine ⟨t, ?_, hend⟩
  simp only [runAll, exec_publish, exec_tstart, hstart, hrun]

end Sys2Proof.Machine
end

section
/-! PROOFS. The pulse generator's operations one by one, and the agreement of its pins, its timer and its train step that
every event keeps (spec/45_pulse_generator.md R131 to R136). -/

namespace Sys2Proof.Machine

/-! ### The pins -/

theorem enterPins_get (c : Cfg) (v : Variant) (k : Fin 4) (p : Vector Bool 4) (j : Fin 4) :
    (enterPins c v k p)[j] =
      if k = 0 ∧ v = .ch3 ∧ c.hasAuxPin = true ∧ j = 3 then true
      else if j = k then true else if j.val + 1 = k.val then false else p[j] := by
  simp [enterPins]

theorem offPins_get (v : Variant) (k : Fin 4) (p : Vector Bool 4) (j : Fin 4) :
    (offPins v k p)[j] = if j = k ∨ (v = .ch3 ∧ j = 3) then false else p[j] := by
  simp [offPins, ite_or]

/-- The pin of the channel entered is high (R133). -/
theorem enterPins_self (c : Cfg) (v : Variant) (k : Fin 4) (p : Vector Bool 4) : (enterPins c v k p)[k] = true := by
  rw [enterPins_get, if_pos rfl, ite_self]

/-- The auxiliary pin rises only at channel 0, which lowers no pin, so the two rules of R133 never meet at one pin. -/
theorem enterPins_other (c : Cfg) (v : Variant) {k j : Fin 4} (p : Vector Bool 4) (hj : j ≠ k) :
    (enterPins c v k p)[j] =
      if j.val + 1 = k.val then false
      else if k = 0 ∧ j = 3 ∧ v = .ch3 ∧ c.hasAuxPin = true then true else p[j] := by
  rw [enterPins_get, if_neg hj]
  by_cases hprev : j.val + 1 = k.val
  · have hk : k ≠ 0 := fun h0 => by simp [h0] at hprev
    simp [hprev, hk]
  · simp only [hprev, if_false]
    exact if_congr (by tauto) rfl rfl

/-! ### Entering a channel and leaving it -/

theorem exec_pulseEnter (k : Fin 4) (s : State) : exec (.pulseEnter k) s = .next (pulseEnter Config.cfg k s) := rfl

theorem exec_pulseOff (k : Fin 4) (s : State) : exec (.pulseOff k) s = .next (pulseOff Config.cfg k s) := rfl

/-- Settles O41: each operation is one record update, whose pins are read off pin by pin. -/
theorem pulseEnterRaisesAndOffLowersPins : Obligations.PulseEnterRaisesAndOffLowersPins := by
  intro s k
  refine ⟨⟨enterPins Config.cfg s.variant k s.pin, ?_, enterPins_self _ _ _ _, fun j hj => enterPins_other _ _ _ hj⟩,
    ⟨offPins s.variant k s.pin, ?_, offPins_get _ _ _⟩⟩
  · rw [exec_pulseEnter, pulseEnter_eq]
  · rw [exec_pulseOff, pulseOff_eq]

/-! ### The generator's two events -/

/-- While a train runs a train request is dropped (R132). -/
theorem trainStart_drops (c : Cfg) {s : State} (h : s.pstate ≠ .off) : trainStart c s = s := if_neg h

/-- There is no expiry while the timer is stopped (R168). -/
theorem exec_pexp_stopped {s : State} (h : s.ptimerRunning = false) : exec .pexp s = .refused .pulseTimerStopped := by
  have harm : exec .pexp s = execPexp s := rfl
  rw [harm, execPexp, h]

/-- Settles O43: a running timer steps the train by the variant of this state, a stopped one gives no event. -/
theorem pulseExpiryStepsTrain : Obligations.PulseExpiryStepsTrain := by
  refine fun s => ⟨fun k hrun hch => ⟨fun k' hk hN => ?_, fun hN => ?_⟩, exec_pexp_stopped⟩
  · rw [exec_pexp_running hrun hch, pulseNext_enters _ hk hN, exec_pulseEnter, pulseEnter_eq]
    exact ⟨rfl, _, rfl, rfl, rfl⟩
  · rw [exec_pexp_running hrun hch, pulseNext_ends _ hN, exec_pulseOff, pulseOff_eq]
    exact ⟨rfl, _, rfl, rfl, rfl⟩

/-- Settles O42: the one test of TSTART is whether the generator is OFF. -/
theorem trainStartsOnlyFromOff : Obligations.TrainStartsOnlyFromOff := by
  refine fun s => ⟨fun hoff => ?_, fun hon => ?_⟩
  · rw [exec_tstart, trainStart_enters _ hoff, exec_pulseEnter, pulseEnter_eq]
    exact ⟨rfl, _, rfl, rfl, rfl⟩
  · rw [exec_tstart, trainStart_drops _ hon]

/-! ### Pins, timer and train step agree -/

theorem pulseCoherent_off_iff {s : State} (h : s.pstate = .off) :
    PulseCoherent s ↔ s.ptimerRunning = false ∧ ∀ j : Fin 4, s.pin[j] = false := by
  simp only [PulseCoherent, h]

theorem pulseCoherent_ch_iff {s : State} {k : Fin 4} (h : s.pstate = .ch k) :
    PulseCoherent s ↔
      s.ptimerRunning = true ∧ s.pin[k] = true ∧ ∀ j : Fin 4, s.pin[j] = true → j = k ∨ j = 3 := by
  simp only [PulseCoherent, h]

/-- The agreement is about three fields of the generator and no other. -/
theorem PulseCoherent.congr {s t : State} (h : PulseCoherent s) (hstate : t.pstate = s.pstate)
    (hrun : t.ptimerRunning = s.ptimerRunning) (hpin : t.pin = s.pin) : PulseCoherent t := by
  rw [PulseCoherent, hstate, hrun, hpin]
  exact h

/-- Entering channel k lowers the pin of the channel before it, so only that pin and pin 3 may have been high. -/
theorem pulseEnter_pulseCoherent (c : Cfg) {k : Fin 4} {s : State}
    (h : ∀ j : Fin 4, s.pin[j] = true → j.val + 1 = k.val ∨ j = 3) : PulseCoherent (pulseEnter c k s) := by
  rw [pulseEnter_eq, pulseCoherent_ch_iff rfl]
  refine ⟨rfl, enterPins_self _ _ _ _, fun j hj => or_iff_not_imp_left.mpr fun hne => ?_⟩
  rw [enterPins_other _ _ _ hne] at hj
  split at hj
  · cases hj
  · rename_i hprev
    split at hj
    · rename_i haux; exact haux.2.1
    · exact (h j hj).resolve_left hprev

/-- Leaving from channel k lowers its pin and, in CH3, pin 3, so no other pin may have been high. -/
theorem pulseOff_pulseCoherent (c : Cfg) {k : Fin 4} {s : State}
    (h : ∀ j : Fin 4, s.pin[j] = true → j = k ∨ (s.variant = .ch3 ∧ j = 3)) : PulseCoherent (pulseOff c k s) := by
  rw [pulseOff_eq, pulseCoherent_off_iff rfl]
  refine ⟨rfl, fun j => ?_⟩
  rw [offPins_get, ite_eq_left_iff]
  exact fun hkept => Bool.eq_false_iff.mpr (mt (h j) hkept)

/-- From OFF every pin is low, so channel 0 is entered with no pin left over (R132). -/
theorem trainStart_pulseCoherent (c : Cfg) {s : State} (h : PulseCoherent s) : PulseCoherent (trainStart c s) := by
  by_cases hoff : s.pstate = .off
  · rw [trainStart_enters c hoff]
    obtain ⟨-, hlow⟩ := (pulseCoherent_off_iff hoff).mp h
    exact pulseEnter_pulseCoherent c fun j hj => absurd hj (Bool.eq_false_iff.mp (hlow j))
  · rw [trainStart_drops c hoff]; exact h

theorem channelCount_le_four (v : Variant) : channelCount v ≤ 4 := by
  cases v <;> decide

/-- Whatever variant the expiry that ends a train reads (R191), the train leaves no pin high: in CH3 pin 3 is lowered with the
last channel's pin, and in CH4 it is the last channel's. -/
theorem lowered_at_last_channel {v : Variant} {k j : Fin 4} (hlast : channelCount v ≤ k.val + 1) (hj : j = k ∨ j = 3) :
    j = k ∨ (v = .ch3 ∧ j = 3) := by
  cases v with
  | ch3 => exact hj.imp_right fun h3 => ⟨rfl, h3⟩
  | ch4 =>
    have hk : k = 3 := Fin.ext (Nat.le_antisymm (Nat.le_of_lt_succ k.isLt) (Nat.le_of_succ_le_succ hlast))
    exact .inl (hj.elim id fun h3 => h3.trans hk.symm)

theorem pulseNext_pulseCoherent (c : Cfg) {k : Fin 4} {s : State} (hch : s.pstate = .ch k) (h : PulseCoherent s) :
    PulseCoherent (pulseNext c k s) := by
  obtain ⟨-, -, hpins⟩ := (pulseCoherent_ch_iff hch).mp h
  rcases Nat.lt_or_ge (k.val + 1) (channelCount s.variant) with hnext | hlast
  · have hlt : k.val + 1 < 4 := hnext.trans_le (channelCount_le_four s.variant)
    rw [pulseNext_enters c (k' := ⟨k.val + 1, hlt⟩) rfl hnext]
    exact pulseEnter_pulseCoherent c fun j hj => (hpins j hj).imp_left fun e => by rw [e]
  · rw [pulseNext_ends c hlast]
    exact pulseOff_pulseCoherent c fun j hj => lowered_at_last_channel hlast (hpins j hj)

/-- A dispatch publishes at most, which leaves the generator alone. -/
theorem dispatch_pulseCoherent (b : Bool) {s : State} (h : PulseCoherent s) : PulseCoherent (dispatch Config.cfg b s) := by
  obtain ⟨t, ht, -, -, hstate, hpin, hrun, -⟩ := dispatchNeverTearsActiveSlot s b
  obtain rfl := Host.Outcome.next.inj ht
  exact h.congr hstate hrun hpin

/-- RESET leaves the generator OFF, every pin low and the timer stopped (R184). -/
theorem resetBlock_pulseCoherent (c : Cfg) (pb : PulseBuffer) (sel : Fin 2) (s : State) :
    PulseCoherent (resetBlock c pb sel s) := by
  obtain ⟨_, _, _, _, e⟩ := resetBlock_eq c pb sel s
  rw [e, pulseCoherent_off_iff rfl]
  exact ⟨rfl, by simp [resetFields]⟩

/-- Settles O58, event by event: RESET establishes the agreement, an expiry and a train request move the train by one step, and
no other event writes the generator. -/
theorem stepKeepsPulseCoherent : Obligations.StepKeepsPulseCoherent := by
  intro s t hp h hs
  obtain ⟨s₀, rest, rfl, hcases⟩ := step_event_cases s t hp hs
  have h₀ : PulseCoherent { s with input := rest, port := .event } := h
  rcases hcases with rfl | ⟨b, rfl⟩ | ⟨f, rfl⟩ | rfl | ⟨-, rfl⟩ | ⟨k, -, hch, rfl⟩ | rfl
  · exact resetBlock_pulseCoherent _ _ _ _
  · exact dispatch_pulseCoherent b h₀
  · rcases radioReceive_cases Config.cfg { s with input := rest, port := .event } f with e | ⟨-, -, e⟩ <;> rw [e]
    · exact h₀
    · exact h₀
  · exact h₀
  · exact h₀
  · exact pulseNext_pulseCoherent _ hch h₀
  · exact trainStart_pulseCoherent _ h₀

end Sys2Proof.Machine
end

section
/-! PROOFS. The LED phase, and the blinking of a held status (spec/46_link_status.md R140 to R142). -/

namespace Sys2Proof.Machine

/-! ### The branches of the LED phase (R141) -/

theorem blinkPeriod_pos (c : Cfg) {st : LinkStatus} (h : st ≠ .receiving) : 0 < c.blinkPeriod st := by
  cases st with
  | receiving => exact absurd rfl h
  | idle => exact Nat.succ_pos _
  | failsafe => exact Nat.succ_pos _
  | binding => exact Nat.succ_pos _

/-- Receiving's period is 0, so one reload value serves every new status. -/
theorem ledPhase_sets (c : Cfg) {s : State} (h : s.ledLast ≠ some s.status) :
    ledPhase c s = { s with ledLast := some s.status, led := true, blinkTimer := c.blinkPeriod s.status } := by
  have hreload : (if s.status = .receiving then 0 else c.blinkPeriod s.status) = c.blinkPeriod s.status :=
    ite_eq_right_iff.mpr fun hr => by rw [hr]; rfl
  rw [ledPhase, if_pos h, hreload]

theorem ledPhase_holds (c : Cfg) {s : State} (h : s.ledLast = some s.status)
    (hstay : s.status = .receiving ∨ s.blinkTimer ≠ 0) : ledPhase c s = s := by
  rw [ledPhase, if_neg (not_not.mpr h)]
  split
  · rfl
  next hr => exact if_neg (hstay.resolve_left hr)

theorem ledPhase_toggles (c : Cfg) {s : State} (h : s.ledLast = some s.status) (hr : s.status ≠ .receiving)
    (ht : s.blinkTimer = 0) :
    ledPhase c s = { s with led := !s.led, blinkTimer := c.blinkPeriod s.status } := by
  rw [ledPhase, if_neg (not_not.mpr h), if_neg hr, if_pos ht]

/-- Settles O46: the three branches of the phase, and the periods R140 orders. -/
theorem ledFollowsStatus : Obligations.LedFollowsStatus := by
  intro s
  refine ⟨fun h => ?_, fun h hstay => ?_, fun h hr ht => ?_, rfl, ?_, ?_⟩
  · rw [exec_dispLed, ledPhase_sets _ h]
  · rw [exec_dispLed, ledPhase_holds _ h hstay]
  · rw [exec_dispLed, ledPhase_toggles _ h hr ht]
  · exact Nat.lt_add_of_pos_right (Nat.succ_pos _)
  · exact Nat.lt_add_of_pos_right (Nat.succ_pos _)

/-! ### A held status (R142) -/

/-- n rounds after the LED was set for the status st: the level follows the whole periods passed, and the countdown holds what
is left of the period under way. -/
def BlinksAt (c : Cfg) (st : LinkStatus) (n : Nat) (s : State) : Prop :=
  s.status = st ∧ s.ledLast = some st ∧ s.led = decide (n / c.blinkPeriod st % 2 = 0) ∧
    s.blinkTimer = c.blinkPeriod st - n % c.blinkPeriod st

theorem not_decide_even (q : Nat) : (!decide (q % 2 = 0)) = decide ((q + 1) % 2 = 0) := by
  rw [← decide_not, decide_eq_decide]
  omega

/-- One more tick completes the period under way, or only adds to it. -/
theorem div_mod_succ_cases {p : Nat} (hp : 0 < p) (n : Nat) :
    (n % p + 1 = p ∧ (n + 1) / p = n / p + 1 ∧ (n + 1) % p = 0) ∨
    (n % p + 1 < p ∧ (n + 1) / p = n / p ∧ (n + 1) % p = n % p + 1) := by
  have hsplit : n % p + p * (n / p) = n := Nat.mod_add_div n p
  rcases (Nat.succ_le_of_lt (Nat.mod_lt n hp)).eq_or_lt with hwhole | hpart
  · exact .inl ⟨hwhole, (Nat.div_mod_unique hp).mpr ⟨by rw [Nat.mul_succ]; omega, hp⟩⟩
  · exact .inr ⟨hpart, (Nat.div_mod_unique hp).mpr ⟨by omega, hpart⟩⟩

/-- A tick leaves the countdown at 0 exactly when it completes a period; the LED phase then toggles and reloads. -/
theorem BlinksAt.round {c : Cfg} {st : LinkStatus} {n : Nat} {s : State} (b : Bool) (hst : st ≠ .receiving)
    (h : BlinksAt c st n s) : BlinksAt c st (n + 1) (ledPhase c (tickPhase b s)) := by
  obtain ⟨rfl, hlast, hled, ht⟩ := h
  have htick : (tickPhase b s).blinkTimer = c.blinkPeriod s.status - (n % c.blinkPeriod s.status + 1) := by
    rw [tickPhase_eq, ht, Nat.sub_sub]
  rcases div_mod_succ_cases (blinkPeriod_pos c hst) n with ⟨hwhole, hdiv, hmod⟩ | ⟨hpart, hdiv, hmod⟩
  · have hzero : (tickPhase b s).blinkTimer = 0 := by rw [htick, hwhole, Nat.sub_self]
    have htoggled : (!s.led) = decide ((n / c.blinkPeriod s.status + 1) % 2 = 0) := by rw [hled, not_decide_even]
    rw [ledPhase_toggles c (s := tickPhase b s) hlast hst hzero, BlinksAt, hdiv, hmod]
    exact ⟨rfl, hlast, htoggled, rfl⟩
  · have hrunning : (tickPhase b s).blinkTimer ≠ 0 := by rw [htick]; exact Nat.sub_ne_zero_of_lt hpart
    rw [ledPhase_holds c (s := tickPhase b s) hlast (.inr hrunning), BlinksAt, hdiv, hmod]
    exact ⟨rfl, hlast, hled, htick⟩

theorem runAll_blinks {st : LinkStatus} (hst : st ≠ .receiving) (bs : List Bool) (n : Nat) (s : State)
    (h : BlinksAt Config.cfg st n s) :
    ∃ t, runAll (bs.map (fun b => [Instr.dispTick b, .dispLed])).flatten s = .next t ∧
      BlinksAt Config.cfg st (n + bs.length) t := by
  induction bs generalizing n s with
  | nil => exact ⟨s, rfl, h⟩
  | cons b bs ih =>
    obtain ⟨t, hrun, ht⟩ := ih (n + 1) _ (h.round b hst)
    rw [Nat.add_right_comm] at ht
    exact ⟨t, hrun, ht⟩

/-- Settles O47: the state in which the LED was just set is round 0. -/
theorem ledBlinksWithItsPeriod : Obligations.LedBlinksWithItsPeriod := by
  intro s bs hst hlast hled ht
  have hstart : BlinksAt Config.cfg s.status 0 s :=
    ⟨rfl, hlast, by rw [hled, Nat.zero_div]; rfl, by rw [ht, Nat.zero_mod, Nat.sub_zero]⟩
  obtain ⟨t, hrun, -, -, hlevel, -⟩ := runAll_blinks hst bs 0 s hstart
  rw [Nat.zero_add] at hlevel
  exact ⟨t, hrun, hlevel⟩

end Sys2Proof.Machine
end

section
/-! PROOFS. Runs of the tick phase (spec/47_tick_scheduler.md R144, R145, R147). -/

namespace Sys2Proof.Machine

/-! ### The countdowns over a run (R144) -/

/-- The samples do not matter: each tick takes one off every countdown that has not expired. -/
theorem runAll_dispTick_countdowns (bs : List Bool) (s : State) :
    ∃ t, runAll (bs.map .dispTick) s = .next t ∧ t.fsTimer = s.fsTimer - bs.length ∧
      t.bindTimer = s.bindTimer - bs.length ∧ t.blinkTimer = s.blinkTimer - bs.length := by
  induction bs generalizing s with
  | nil => exact ⟨s, rfl, rfl, rfl, rfl⟩
  | cons b bs ih =>
    obtain ⟨t, hrun, hfs, hbind, hblink⟩ := ih (tickPhase b s)
    have htick (x : Nat) : x - 1 - bs.length = x - (b :: bs).length := by
      rw [List.length_cons, Nat.sub_sub, Nat.add_comm]
    rw [tickPhase_eq, htick] at hfs hbind hblink
    exact ⟨t, hrun, hfs, hbind, hblink⟩

/-! ### The requests of a run (R145) -/

theorem requests_cons (b : Bool) (bs : List Bool) (s : State) :
    requests (b :: bs) s = (tickPhase b s).bindRequest :: requests bs (tickPhase b s) := rfl

/-- A request leaves the debounced state pressed, which is why the next tick cannot raise one. -/
theorem btnDeb_of_tickPhase_request {b : Bool} {s : State} (h : (tickPhase b s).bindRequest = true) :
    (tickPhase b s).btnDeb = true := by
  rw [tickPhase_eq] at h ⊢
  exact (Bool.and_eq_true_iff.mp h).2

theorem tickPhase_noRequest_of_debounced {b : Bool} {s : State} (h : s.btnDeb = true) :
    (tickPhase b s).bindRequest = false :=
  tickPhase_noRequest fun ⟨_, _, hdeb⟩ => Bool.false_ne_true (hdeb.symm.trans h)

/-- Pressed samples keep a debounced press. -/
theorem tickPhase_pressed_btnDeb {s : State} (h : s.btnDeb = true) : (tickPhase true s).btnDeb = true := by
  rw [tickPhase_eq, h]
  exact ite_self true

theorem requests_held (n : Nat) (s : State) (h : s.btnDeb = true) :
    requests (List.replicate n true) s = List.replicate n false := by
  induction n generalizing s with
  | zero => rfl
  | succ n ih =>
    rw [List.replicate_succ, requests_cons, tickPhase_noRequest_of_debounced h, ih _ (tickPhase_pressed_btnDeb h),
      List.replicate_succ]

/-- The first pressed sample after a released one only becomes the previous sample. -/
theorem tickPhase_firstPress {s : State} (hprev : s.btnPrev = false) (hdeb : s.btnDeb = false) :
    (tickPhase true s).bindRequest = false ∧ (tickPhase true s).btnPrev = true ∧ (tickPhase true s).btnDeb = false := by
  rw [tickPhase_eq, hprev, hdeb]
  exact ⟨rfl, rfl, rfl⟩

/-- The second pressed sample in a row is the debounced edge. -/
theorem tickPhase_secondPress {s : State} (hprev : s.btnPrev = true) (hdeb : s.btnDeb = false) :
    (tickPhase true s).bindRequest = true := by
  rw [tickPhase_eq, hprev, hdeb]
  rfl

/-- Settles O14: the countdowns by induction on the samples; a held press is a first pressed sample, the edge, and then samples
of a debounced press, by induction on their number; and a request leaves the debounced state pressed. -/
theorem countdownsExpireAndPressRequestsOnce : Obligations.CountdownsExpireAndPressRequestsOnce := by
  refine ⟨runAll_dispTick_countdowns, fun n s hprev hdeb => ?_, fun s b₁ b₂ h => ?_⟩
  · obtain ⟨hnone, hprev', hdeb'⟩ := tickPhase_firstPress hprev hdeb
    have hedge := tickPhase_secondPress hprev' hdeb'
    rw [List.replicate_succ, List.replicate_succ, requests_cons, requests_cons, hnone, hedge,
      requests_held n _ (btnDeb_of_tickPhase_request hedge)]
  · rw [requests_cons, requests_cons] at h
    obtain ⟨hfirst, htail⟩ := List.cons.inj h
    have hsecond := List.head_eq_of_cons_eq htail
    have hquiet := tickPhase_noRequest_of_debounced (b := b₂) (btnDeb_of_tickPhase_request hfirst)
    exact Bool.false_ne_true (hquiet.symm.trans hsecond)

end Sys2Proof.Machine
end

section
/-! PROOFS. The output commands and the condition entry as operations of their own (spec/48_output_commands.md R148 to R161,
spec/60_exceptions.md R165), RESET field by field (spec/70_reset_and_hazards.md R184 to R186), and the trace that no step of
any encoding space shortens (R148). -/

namespace Sys2Proof

/-- The operation of the table that is one output command (R150). -/
def commandInstr : Command → Instr
  | .radioInit => .radioInit
  | .ce b => .ce b
  | .setAddr a => .setAddr a
  | .setChannel ch => .setChannel ch
  | .flushRx => .flushRx
  | .clearIrq => .clearIrq
  | .hopTimerStart i => .hopTimerStart i
  | .hopTimerStop => .hopTimerStop
  | .nvSave r => .nvSave r
  | .ptimerStop => .ptimerStop
  | .ptimerLoad v => .ptimerLoad v
  | .ptimerStart => .ptimerStart

/-- The codes 1 to 6 name the six conditions (R165). -/
theorem condOfCode_code (cc : CondCode) : condOfCode cc.code = some cc := by
  cases cc <;> rfl

theorem condOfCode_eq_none {code : BitVec 4} (h : code = 0#4 ∨ 7 ≤ code.toNat) : condOfCode code = none := by
  rcases h with rfl | h
  · rfl
  · unfold condOfCode
    split
    case h_7 => rfl
    all_goals omega

end Sys2Proof

namespace Sys2Proof.Machine

/-! ### The output commands -/

/-- A command run alone is the effect and the trace entry of `emit` (R149). -/
theorem exec_commandInstr (cmd : Command) (s : State) : exec (commandInstr cmd) s = .next (emit Config.cfg cmd s) := by
  cases cmd <;> rfl

/-- Settles O9: each command is its `emit`, whose effect is one field of the radio mirror, or none. -/
theorem radioCommandsWriteTheirMirror : Obligations.RadioCommandsWriteTheirMirror := fun s b a ch =>
  ⟨exec_commandInstr .radioInit s, exec_commandInstr (.ce b) s, exec_commandInstr (.setAddr a) s,
    exec_commandInstr (.setChannel ch) s, exec_commandInstr .flushRx s, exec_commandInstr .clearIrq s⟩

/-- The stopped hop timer admits no expiry (R114, R158). -/
theorem exec_hexp_of_hopTimerStop {s t : State} (h : exec .hopTimerStop s = .next t) :
    exec .hexp t = .refused .hopTimerStopped := by
  obtain rfl := Host.Outcome.next.inj ((exec_commandInstr .hopTimerStop s).symm.trans h)
  exact exec_hexp_stopped (emit_hopTimerRunning Config.cfg .hopTimerStop s)

/-- Settles O10: each command is its `emit`, and a stop leaves the flag HEXP tests cleared. -/
theorem timerCommandsStartAndStop : Obligations.TimerCommandsStartAndStop := fun s i v =>
  ⟨exec_commandInstr (.hopTimerStart i) s, exec_commandInstr .hopTimerStop s, fun _ => exec_hexp_of_hopTimerStop,
    exec_commandInstr .ptimerStop s, exec_commandInstr (.ptimerLoad v) s, exec_commandInstr .ptimerStart s⟩

/-! ### The condition entry -/

theorem exec_cond_some {code : BitVec 4} {cc : CondCode} (h : condOfCode code = some cc) (s : State) :
    exec (.cond code) s = .next (raise cc .nothing s) := by
  simp only [exec, execCond, h]

theorem exec_cond_none {code : BitVec 4} (h : condOfCode code = none) (s : State) :
    exec (.cond code) s = .refused (.reservedCondition code) := by
  simp only [exec, execCond, h]

/-- Settles O12: the code of a condition names it, and the codes outside 1 to 6 name none (R165). -/
theorem conditionEntryOnlyForRaisedCodes : Obligations.ConditionEntryOnlyForRaisedCodes := by
  refine fun s code => ⟨?_, fun h => exec_cond_none (condOfCode_eq_none h) s⟩
  rintro cc rfl
  exact exec_cond_some (condOfCode_code cc) s

/-! ### RESET -/

theorem exec_reset (s : State) :
    exec .reset s =
      .next (resetBlock Config.cfg (Config.pulseBufferDraw s.draws) (Config.selectorDraw s.draws) s) := rfl

/-- The boot's load of a stored record as one update, which gains no entry (R186). -/
theorem bootConfig_record_update {s : State} {r : BindRecord} (h : s.nv = some r) :
    bootConfig s =
      { s with
        modelAddr := recordAddress r, hopSeq := recordHops r, variant := recordVariant r, trace := s.trace ++ [] } := by
  rw [bootConfig_record h, bindParse, List.append_nil]

/-- RESET as an update of the reset state (R184 to R186): it differs in the configuration the boot loads, in what is stored
and drawn, and in the model's own input, port and trace. -/
theorem resetBlock_of_config {pb : PulseBuffer} {sel : Fin 2} {s : State} {a : Address} {h : HopTable} {v : Variant}
    {es : List TraceEntry}
    (hload : bootConfig (resetFields pb sel s) =
      { resetFields pb sel s with modelAddr := a, hopSeq := h, variant := v, trace := s.trace ++ es }) :
    resetBlock Config.cfg pb sel s =
      { State.reset with
        nv := s.nv, modelAddr := a, hopSeq := h, variant := v
        fsValues := Vector.replicate 4 (Config.cfg.center v), radioAddr := a, radioChannel := h[0]
        pbuf := pb, psel := sel, draws := s.draws + 1, input := s.input, port := s.port
        trace := s.trace ++ (es ++
          [.cmd .radioInit, .cmd (.ce false), .cmd (.setAddr a), .cmd .hopTimerStop, .cmd (.setChannel h[0]), .cmd .flushRx,
           .cmd .clearIrq, .cmd (.ce true)]) } := by
  rw [resetBlock, bootBlock_of_config Config.cfg hload, ← List.append_assoc]
  rfl

/-- Settles O52: the reset column, then the boot's load with and without a stored record. -/
theorem resetEstablishesResetState : Obligations.ResetEstablishesResetState := by
  intro s
  rw [exec_reset]
  constructor
  · intro hnv
    rw [resetBlock_of_config (bootConfig_noRecord hnv), hnv]
    rfl
  · intro r hnv
    refine ⟨recordAddress r, recordHops r, ?_, recordAddress_get r, recordHops_get r⟩
    rw [resetBlock_of_config (bootConfig_record_update hnv), hnv]
    rfl

/-! ### The trace -/

/-- From s to t the trace keeps its entries and may gain some at its end (R148). -/
def TraceGrows (s t : State) : Prop := s.trace <+: t.trace

theorem TraceGrows.refl (s : State) : TraceGrows s s := ⟨[], List.append_nil _⟩

theorem TraceGrows.trans {s t u : State} (h : TraceGrows s t) (h' : TraceGrows t u) : TraceGrows s u :=
  List.IsPrefix.trans h h'

/-- A state given as one record update, in which the trace is the old one and the gained entries. -/
theorem TraceGrows.of_eq {s t u : State} {es : List TraceEntry} (e : t = u) (h : u.trace = s.trace ++ es) :
    TraceGrows s t :=
  ⟨es, by rw [e, h]⟩

section
variable (c : Cfg) (s : State)

theorem emit_traceGrows (cmd : Command) : TraceGrows s (emit c cmd s) := .of_eq rfl (emit_trace c cmd s)

theorem raise_traceGrows (code : CondCode) (info : CondInfo) : TraceGrows s (raise code info s) := .of_eq rfl rfl

/-- A commit of whatever record is in hand (R107). -/
theorem bindCommit_traceGrows (r : BindRecord) : TraceGrows s (bindCommit c { s with bindRec := r }) :=
  .of_eq (bindCommit_eq c _) rfl

theorem stickFrame_traceGrows (f : Frame) : TraceGrows s (stickFrame c f s) := .of_eq (stickFrame_eq c f s) rfl

theorem fsPhase_traceGrows : TraceGrows s (fsPhase c s) := by
  rcases fsPhase_cases c s with ⟨-, e⟩ | ⟨-, -, e⟩
  · rw [e]; exact .refl s
  · exact .of_eq e rfl

theorem hopPhase_traceGrows : TraceGrows s (hopPhase c s) := by
  rcases hopPhase_cases c s with ⟨-, e⟩ | ⟨-, -, e⟩ | ⟨-, -, e⟩
  · rw [e]; exact .refl s
  · exact .of_eq e rfl
  · exact .of_eq e rfl

theorem ledPhase_traceGrows : TraceGrows s (ledPhase c s) := .of_eq (ledPhase_eq c s) (List.append_nil _).symm

theorem resetBlock_traceGrows (pb : PulseBuffer) (sel : Fin 2) : TraceGrows s (resetBlock c pb sel s) := by
  obtain ⟨_, _, _, _, e⟩ := resetBlock_eq c pb sel s
  exact .of_eq e rfl

/-- Every frame operation, in whatever mode it is run (R104 to R106, R121 to R123). -/
theorem runFrame_traceGrows (op : FrameOp) (f : Frame) : TraceGrows s (runFrame c op f s) := by
  cases op with
  | bind0Ch3 => exact .refl s
  | bind0Ch4 => exact .refl s
  | bindBlk1 => exact .refl s
  | bindBlk2 => exact .refl s
  | bindBlk3 => exact bindCommit_traceGrows c s (recordBlock 14 6 f s.bindRec)
  | bindReject => exact raise_traceGrows s .bindMalformed (.stageFrame s.bindStage f)
  | dataStick => exact stickFrame_traceGrows c s f
  | dataFsEn => exact .of_eq (failsafeEnableFrame_eq c f s) rfl
  | dataFsDis => exact .of_eq (failsafeDisableFrame_eq c s) rfl
  | dataUnknown => exact raise_traceGrows s .frameUnknown (.frame f)

/-- The receiver phase, also run alone during a session, where the last frame may be any row. -/
theorem rxPhase_traceGrows : TraceGrows s (rxPhase c s) := by
  rcases hr : s.radioFlag
  · rw [rxPhase_idle c s hr]; exact .refl s
  · have hclear : TraceGrows s { s with radioFlag := false, rxq := [], trace := s.trace ++ [.cmd .clearIrq] } :=
      .of_eq rfl rfl
    rw [rxPhase_eq c s hr]
    split
    · exact hclear
    · exact hclear.trans (runFrame_traceGrows c _ _ _)

end

theorem traceGrows_keptByRoutine (c : Cfg) (s₀ : State) : KeptByRoutine c (TraceGrows s₀) where
  record _ _ _ h := h.trans (.of_eq rfl rfl)
  enter s _ h := h.trans (.of_eq (bindEnter_eq c s) rfl)
  restart s _ h := h.trans (.of_eq (armBeacon_eq c _) rfl)
  timeout s _ h := h.trans (.of_eq (bindTimeout_eq c s) rfl)
  failsafeFrame s _ _ h := h.trans (.of_eq (hopValid_eq c _) rfl)
  fs s h := h.trans (fsPhase_traceGrows c s)
  hop s _ h := h.trans (hopPhase_traceGrows c s)
  led s h := h.trans (ledPhase_traceGrows c s)
  pulse _ _ _ _ _ _ _ h := h.trans (.of_eq rfl rfl)

/-- An event, handled whole (R66). -/
theorem step_event_traceGrows {s t : State} (hp : s.port = .event) (h : step s = .next t) : TraceGrows s t :=
  (traceGrows_keptByRoutine Config.cfg s).step (fun _ _ h => h) (fun u r h => h.trans (bindCommit_traceGrows Config.cfg u r))
    (fun u f h => h.trans (stickFrame_traceGrows Config.cfg u f))
    (fun u pb sel h => h.trans (resetBlock_traceGrows Config.cfg u pb sel)) hp (.refl s) h

/-- A phase run alone (R94). -/
theorem exec_phase_traceGrows {i : Instr} {b : Bool} {bs : List Byte} {s t : State}
    (he : encode i = some (.phase b, bs)) (h : exec i s = .next t) : TraceGrows s t := by
  have hk := traceGrows_keptByRoutine Config.cfg s
  cases i <;> cases he <;> obtain rfl := Host.Outcome.next.inj h
  case dispTick => exact .refl s
  case dispButton => exact hk.buttonPhase s (.refl s)
  case dispBind => exact hk.bindPhase (fun u r h => h.trans (bindCommit_traceGrows Config.cfg u r)) s (.refl s)
  case dispRx => exact rxPhase_traceGrows Config.cfg s
  case dispFs => exact fsPhase_traceGrows Config.cfg s
  case dispHop => exact hopPhase_traceGrows Config.cfg s
  case dispLed => exact ledPhase_traceGrows Config.cfg s

/-- A command run alone is its `emit` (R149). -/
theorem exec_command_traceGrows {i : Instr} {bs : List Byte} {s t : State} (he : encode i = some (.command, bs))
    (h : exec i s = .next t) : TraceGrows s t := by
  cases i <;> cases he
  all_goals
    obtain rfl := Host.Outcome.next.inj h
    exact emit_traceGrows Config.cfg s _

theorem exec_cond_traceGrows {code : BitVec 4} {s t : State} (h : exec (.cond code) s = .next t) : TraceGrows s t := by
  rcases hc : condOfCode code with _ | cc
  · rw [exec_cond_none hc] at h; cases h
  · rw [exec_cond_some hc] at h
    obtain rfl := Host.Outcome.next.inj h
    exact raise_traceGrows s cc .nothing

/-- An operation decoded in another space than the event space: a frame operation, a phase, a command or a condition entry
(log entry 6). -/
theorem exec_decoded_traceGrows {p : Port} {m : FrameMode} {i : Instr} {bs rest : List Byte} {s t : State}
    (hp : p ≠ .event) (hd : decode Config.cfg p m bs = .ok (i, rest)) (h : exec i s = .next t) : TraceGrows s t := by
  cases p with
  | event => exact absurd rfl hp
  | frame =>
    obtain ⟨⟨_, he, -⟩, -⟩ := decode_frame_ok hd
    obtain ⟨op, f, rfl, -⟩ := frameInstr_of_encode he
    obtain rfl := Host.Outcome.next.inj ((exec_frameInstr op f s).symm.trans h)
    exact runFrame_traceGrows Config.cfg s op f
  | phase sample =>
    obtain ⟨_, _, he, -⟩ := decodePhase_ok hd
    exact exec_phase_traceGrows he h
  | command =>
    obtain ⟨_, he, -⟩ := decodeCommand_ok hd
    exact exec_command_traceGrows he h
  | condition =>
    obtain ⟨_, he, -⟩ := decodeCondition_ok hd
    cases i <;> cases he
    exact exec_cond_traceGrows h

/-- A word read in another space than the event space. -/
theorem step_word_traceGrows {s t : State} (hp : s.port ≠ .event) (h : step s = .next t) : TraceGrows s t := by
  unfold step at h
  rcases e : fetch Config.cfg s with r | ⟨i, s₀⟩
  · rw [e] at h; cases h
  · rw [e] at h
    obtain ⟨rest, -, hd, rfl⟩ := (fetch_ok_iff s s₀ _ i).mp e
    exact exec_decoded_traceGrows (s := { s with input := rest, port := .event }) hp hd h

/-- Settles O8, in the event space by the induction over a step, in the others operation by operation. -/
theorem traceOnlyGrows : Obligations.TraceOnlyGrows := by
  intro s t h
  have hgrows : TraceGrows s t := by
    by_cases hp : s.port = .event
    · exact step_event_traceGrows hp h
    · exact step_word_traceGrows hp h
  obtain ⟨es, hes⟩ := hgrows
  exact ⟨es, hes.symm⟩

end Sys2Proof.Machine
end
